-- ==== Sys2Proof/Word.lean ====
section
/-!
DEFINITION. The words of the Header Codec: the widths of its pins (10_state R18) and of the header's fields (00_scope R8),
and the bundles the spec names with them.
-/

namespace Sys2Proof

/-- A wire byte (20_memory R31). -/
abbrev Byte := BitVec 8

/-- The logical header word `W` (30_encoding R45). -/
abbrev Word := BitVec 32

/-- A value on one of the five ENCODE operand pins: `ARGW` = 8 bits, unsigned (00_scope R9, 10_state R18). -/
abbrev Operand := BitVec 8

/-- The DECODE length operand `dec_len`: `LENW` = 3 bits (00_scope R9, 10_state R18). -/
abbrev Len := BitVec 3

/-- The priority field: `PRI_W` = 2 bits (00_scope R8). -/
abbrev Priority := BitVec 2

/-- The source and destination fields: `SRC_W` = `DST_W` = 5 bits (00_scope R8). -/
abbrev NodeId := BitVec 5

/-- The destPort and sourcePort fields: `DPORT_W` = `SPORT_W` = 6 bits (00_scope R8). -/
abbrev PortNumber := BitVec 6

/-- The reserved field: `RSV_W` = 8 bits (00_scope R8). -/
abbrev Reserved := BitVec 8

/-- The output `enc_oor`: bit 0 priority, 1 source, 2 destination, 3 destPort, 4 sourcePort (10_state R18). -/
abbrev OorVector := BitVec 5

/-- A pin of one bit (`enc_err`, `dec_err`; 10_state R18). -/
abbrev Pin := BitVec 1

/-- The routing tuple ENCODE takes (00_scope R14, 40_encode R65), as the values on the five operand pins. -/
structure RoutingTuple where
  priority    : Operand
  source      : Operand
  destination : Operand
  destPort    : Operand
  sourcePort  : Operand
deriving DecidableEq, Repr

/-- The RoutingHeader: the six fields of the header, each of exactly its width (00_scope R3, R14). -/
structure Header where
  priority    : Priority
  source      : NodeId
  destination : NodeId
  destPort    : PortNumber
  sourcePort  : PortNumber
  reserved    : Reserved
deriving DecidableEq, Repr

/-- The wire header: 4 bytes, `b0` transmitted and received first (20_memory R31). -/
structure WireHeader where
  b0 : Byte
  b1 : Byte
  b2 : Byte
  b3 : Byte
deriving DecidableEq, Repr

/-- What DECODE is handed: the four wire pins and `dec_len`, the count of bytes the host really has
(41_decode R80, 30_encoding R56). -/
structure ReceivedHeader where
  wire : WireHeader
  len  : Len
deriving DecidableEq, Repr

/-- The closed type of the codec's error outcomes, with what each records (60_exceptions R105). -/
inductive CodecError where
  /-- ENCODE under `FAULT` found an operand out of range; `oor` names every offender (40_encode R67). -/
  | encodeRange (oor : OorVector)
  /-- DECODE was handed other than 4 bytes (41_decode R82). -/
  | decodeLength (len : Len)
deriving DecidableEq, Repr

end Sys2Proof
end

