-- ==== Sys2Proof/Config.lean ====
section
/-!
DEFINITION. What is fixed before the first operation and never written (10_state R16): the parameters of 00_scope R8 and R9.
The widths `PRI_W` to `RSV_W`, `ARGW` and `LENW` are the widths of the types of Word.lean, named here as numbers.
No output of the codec is ever undefined (42_laws R102), so there is no free value here.
-/

namespace Sys2Proof

/-- What ENCODE does with an operand that does not fit its field (00_scope R9, 92_eei_decisions D4). -/
inductive OorPolicy where
  /-- The operation ends in EncodeRangeError (40_encode R67). -/
  | fault
  /-- The operand is reduced to its low bits and nothing is signalled (40_encode R68). -/
  | mask
deriving DecidableEq, Repr

/-- The build-time configuration that 00_scope R9 asks a model to carry. -/
structure Config where
  oorPolicy : OorPolicy
deriving DecidableEq, Repr

/-- The configuration this hardware is built with: `OOR_POLICY = FAULT` (00_scope R9). -/
def Config.hardware : Config := { oorPolicy := .fault }

/-- `PRI_W` (00_scope R8). -/
abbrev Config.priW : Nat := 2
/-- `SRC_W` (00_scope R8). -/
abbrev Config.srcW : Nat := 5
/-- `DST_W` (00_scope R8). -/
abbrev Config.dstW : Nat := 5
/-- `DPORT_W` (00_scope R8). -/
abbrev Config.dportW : Nat := 6
/-- `SPORT_W` (00_scope R8). -/
abbrev Config.sportW : Nat := 6
/-- `RSV_W` (00_scope R8). -/
abbrev Config.rsvW : Nat := 8
/-- `HDR_BITS` (00_scope R8). -/
abbrev Config.hdrBits : Nat := 32
/-- `HDR_BYTES` (00_scope R8). -/
abbrev Config.hdrBytes : Nat := 4
/-- `ARGW` (00_scope R9). -/
abbrev Config.argW : Nat := 8
/-- `LENW` (00_scope R9). -/
abbrev Config.lenW : Nat := 3

/-- `ENC_RSV`: what ENCODE puts in the reserved field (00_scope R8, 30_encoding R58). -/
abbrev Config.encRsv : Reserved := 0x00#8

/-- `EMPTY_HEADER`: what DECODE delivers when it reports an error (00_scope R9, 41_decode R84). -/
def Config.emptyHeader : Header :=
  { priority := 0#2, source := 0#5, destination := 0#5, destPort := 0#6, sourcePort := 0#6, reserved := 0x00#8 }

end Sys2Proof
end

