-- ==== Sys2Proof/Machine/Header.lean ====
section
/-!
DEFINITION. The header word and its four internal functions (30_encoding R45 to R52), pure and total (00_scope R13),
and a host's two ways of reading the wire bytes as one word (20_memory R34).
-/

namespace Sys2Proof.Machine

/-- `pack`: the six fields, most significant first, into `W` (30_encoding R49). -/
def pack (h : Header) : Word :=
  (h.priority.setWidth 32 <<< 30) ||| (h.source.setWidth 32 <<< 25) ||| (h.destination.setWidth 32 <<< 20)
    ||| (h.destPort.setWidth 32 <<< 14) ||| (h.sourcePort.setWidth 32 <<< 8) ||| h.reserved.setWidth 32

/-- `unpack`: slice `W` by bit width (30_encoding R50). -/
def unpack (w : Word) : Header :=
  { priority    := w.extractLsb' 30 2
    source      := w.extractLsb' 25 5
    destination := w.extractLsb' 20 5
    destPort    := w.extractLsb' 14 6
    sourcePort  := w.extractLsb' 8 6
    reserved    := w.extractLsb' 0 8 }

/-- Group `g` of `W`, counted from the start of the logical string: `W[31-8g : 24-8g]` (30_encoding R47). -/
def group (w : Word) (g : Fin 4) : Byte := w.extractLsb' (24 - 8 * g.val) 8

/-- `to_wire`: the four groups in reverse group order, group 3 first (30_encoding R51). -/
def toWire (w : Word) : WireHeader :=
  { b0 := group w 3, b1 := group w 2, b2 := group w 1, b3 := group w 0 }

/-- `from_wire`: undo the reversal, `{b3, b2, b1, b0}` (30_encoding R52). -/
def fromWire (b : WireHeader) : Word :=
  (b.b3.setWidth 32 <<< 24) ||| (b.b2.setWidth 32 <<< 16) ||| (b.b1.setWidth 32 <<< 8) ||| b.b0.setWidth 32

/-- The wire bytes in transmission order. -/
def wireBytes (b : WireHeader) : List Byte := [b.b0, b.b1, b.b2, b.b3]

/-- A host's load of the wire bytes with the lowest-indexed byte least significant (20_memory R34). -/
def loadLittle (b : WireHeader) : Nat :=
  b.b0.toNat + 2 ^ 8 * b.b1.toNat + 2 ^ 16 * b.b2.toNat + 2 ^ 24 * b.b3.toNat

/-- A host's load of the wire bytes with the lowest-indexed byte most significant (20_memory R34). -/
def loadBig (b : WireHeader) : Nat :=
  2 ^ 24 * b.b0.toNat + 2 ^ 16 * b.b1.toNat + 2 ^ 8 * b.b2.toNat + b.b3.toNat

/-- `W` with its four bytes in reverse order (20_memory R34). -/
def swapBytes (w : Word) : Word :=
  (w.extractLsb' 0 8).setWidth 32 <<< 24 ||| (w.extractLsb' 8 8).setWidth 32 <<< 16
    ||| (w.extractLsb' 16 8).setWidth 32 <<< 8 ||| (w.extractLsb' 24 8).setWidth 32

/-- The in-place masks of the six fields, most significant field first (30_encoding R46). -/
def fieldMasks : List Word :=
  [0xC0000000#32, 0x3E000000#32, 0x01F00000#32, 0x000FC000#32, 0x00003F00#32, 0x000000FF#32]

end Sys2Proof.Machine
end

