-- ==== Sys2Proof/Syntax.lean ====
section
/-!
DEFINITION. The operations of the codec (30_encoding R56, R57) at the level of its pins, and the requests a host's software
can make of it (10_state R19, 30_encoding R62), before they are put on the pins.
-/

namespace Sys2Proof

/-- The two datapaths; which operation is performed is decided by which datapath the host uses (10_state R17). -/
inductive Datapath where
  | encoder
  | decoder
deriving DecidableEq, Repr

/-- An operation with its operand bundle as the pins carry it (30_encoding R56): one constructor per row of
opcode_table.json. There is no opcode and no instruction word (30_encoding R56, 92_eei_decisions D12). -/
inductive Instr where
  /-- ENCODE: the five operand pins in positional order (40_encode R65). -/
  | encode (priority source destination destPort sourcePort : Operand)
  /-- DECODE: the four wire pins in reception order and `dec_len` (41_decode R80). -/
  | decode (wire0 wire1 wire2 wire3 : Byte) (len : Len)
deriving DecidableEq, Repr

/-- The datapath an operation uses (10_state R17). -/
def Instr.datapath : Instr → Datapath
  | .encode .. => .encoder
  | .decode .. => .decoder

/-- The five operands of ENCODE by name (40_encode R65). -/
inductive OperandName where
  | priority
  | source
  | destination
  | destPort
  | sourcePort
deriving DecidableEq, Repr

/-- What a host's software asks for, before the pins bound it (10_state R19, 60_exceptions R119): software arguments may be
negative, fractional or too large, and a byte sequence may be too long. -/
inductive Request where
  | encode (priority source destination destPort sourcePort : Rat)
  | decode (bytes : List Byte)
deriving DecidableEq, Repr

/-- Why a request cannot be presented to the hardware (60_exceptions R119). -/
inductive Unpresentable where
  /-- An ENCODE argument that is negative, fractional or at or above 2 to the power `ARGW`. -/
  | operand (which : OperandName)
  /-- A DECODE byte sequence of more than 7 bytes. -/
  | sequenceTooLong (count : Nat)
deriving DecidableEq, Repr

/-- Why a header word or a byte sequence is no instance of a row of the opcode table (30_encoding R57, R59). -/
inductive WordReject where
  /-- The ENCODE row needs the reserved byte to be zero (mask 0x000000FF, match 0). -/
  | reservedNotZero (reserved : Reserved)
  /-- A header has exactly 4 bytes (30_encoding R55). -/
  | notFourBytes (count : Nat)
deriving DecidableEq, Repr

end Sys2Proof
end

