-- ==== Sys2Proof/WellFormed.lean ====
section
/-!
DEFINITION. Well-formedness of the operand bundles in the spec's own words: a valid tuple (00_scope R14) and a well-formed
DECODE operand (41_decode R80). An ill-formed bundle still runs: it ends in one of the two error outcomes.
-/

namespace Sys2Proof

/-- `valid(t)`: "priority<4, source<32, destination<32, destPort<64, sourcePort<64" (00_scope R8, R14). -/
abbrev RoutingTuple.Valid (t : RoutingTuple) : Prop :=
  t.priority.toNat < 4 ∧ t.source.toNat < 32 ∧ t.destination.toNat < 32 ∧ t.destPort.toNat < 64 ∧ t.sourcePort.toNat < 64

/-- A well-formed DECODE operand has `dec_len == 4` (41_decode R80). -/
abbrev ReceivedHeader.WellFormed (r : ReceivedHeader) : Prop := r.len = 4#3

/-- Well-formedness of an operation's operand bundle (00_scope R14, 41_decode R80). -/
abbrev Instr.WellFormed : Instr → Prop
  | .encode p s d t u => RoutingTuple.Valid ⟨p, s, d, t, u⟩
  | .decode b0 b1 b2 b3 len => ReceivedHeader.WellFormed ⟨⟨b0, b1, b2, b3⟩, len⟩

/-- A software argument the 8-bit pins can carry: not negative, not fractional, below 2 to the power `ARGW`
(60_exceptions R119). -/
abbrev PresentableOperand (q : Rat) : Prop := q.den = 1 ∧ 0 ≤ q.num ∧ q.num < 256

/-- A request that can be presented to the hardware (10_state R19, 60_exceptions R119). -/
abbrev Request.Presentable : Request → Prop
  | .encode p s d t u =>
    PresentableOperand p ∧ PresentableOperand s ∧ PresentableOperand d ∧ PresentableOperand t ∧ PresentableOperand u
  | .decode bytes => bytes.length ≤ 7

end Sys2Proof
end

