-- ==== Sys2Proof/Decode.lean ====
section
/-!
DEFINITION. Reading header words and bytes by the rows of the opcode table, the encoder of those words, and putting a host's
request on the pins (the boundary of 60_exceptions R119).

The hardware has no instruction word: a row of opcode_table.json describes the header word `W` that ENCODE produces or DECODE
accepts (30_encoding R57, 92_eei_decisions D27). The two rows overlap. DESIGN CHOICE (log 4): read without being told the
datapath, a word belongs to the row with the more specific mask, so ENCODE where the reserved byte is zero, DECODE elsewhere.
-/

namespace Sys2Proof

open Sys2Proof.Machine

/-- The mask of a datapath's row (opcode_table.json, 30_encoding R57). -/
abbrev rowMask : Datapath → Word
  | .encoder => 0x000000FF#32
  | .decoder => 0x00000000#32

/-- The match value of a datapath's row (opcode_table.json, 30_encoding R57). -/
abbrev rowMatch : Datapath → Word
  | .encoder => 0x00000000#32
  | .decoder => 0x00000000#32

/-- The operation whose ENCODE row is `w`: `unpack` of the word, each field zero-extended onto its operand pin
(30_encoding R54, R57). -/
def encodeOfWord (w : Word) : Instr :=
  let h := unpack w
  .encode (h.priority.setWidth 8) (h.source.setWidth 8) (h.destination.setWidth 8)
    (h.destPort.setWidth 8) (h.sourcePort.setWidth 8)

/-- The operation whose DECODE row is `w`: the wire bytes of the word, all four of them present (41_decode R81). -/
def decodeOfWord (w : Word) : Instr :=
  let b := toWire w
  .decode b.b0 b.b1 b.b2 b.b3 4#3

/-- A header word read by the row of a given datapath (30_encoding R57): only the ENCODE row refuses a word, when the
reserved byte is not zero. -/
def decodeRow (dp : Datapath) (w : Word) : Except WordReject Instr :=
  match dp with
  | .encoder =>
    if w &&& rowMask .encoder = rowMatch .encoder then .ok (encodeOfWord w)
    else .error (.reservedNotZero (unpack w).reserved)
  | .decoder => .ok (decodeOfWord w)

/-- A header word read by the table alone: the row with the more specific mask that matches (log 4). -/
def decodeWord (w : Word) : Instr :=
  if w &&& rowMask .encoder = rowMatch .encoder then encodeOfWord w else decodeOfWord w

/-- Any byte sequence read as a header in transmission order: 4 bytes, or rejected by name (30_encoding R55). -/
def decodeBytes : List Byte → Except WordReject Instr
  | [b0, b1, b2, b3] => .ok (decodeWord (fromWire ⟨b0, b1, b2, b3⟩))
  | bytes => .error (.notFourBytes bytes.length)

/-- The decoder on a row's word as opcode_table.json numbers its bits: bit 0 is bit 0 of `W`. The word is laid out as
the hardware carries it, least significant byte first (20_memory R32). Bits above `nbits` are zero; a header has 32. -/
def decodeTableWord (nbits w : Nat) : Option Instr :=
  if nbits ≤ 32 then (decodeBytes (wireBytes (toWire (BitVec.ofNat 32 (w % 2 ^ nbits))))).toOption else none

/-- The header word of an operation: what a well-formed ENCODE produces (40_encode R66) and what a well-formed DECODE is
handed (41_decode R81). -/
def encodeWord : Instr → Word
  | .encode p s d t u =>
    pack { priority := p.setWidth 2, source := s.setWidth 5, destination := d.setWidth 5,
           destPort := t.setWidth 6, sourcePort := u.setWidth 6, reserved := Config.encRsv }
  | .decode b0 b1 b2 b3 _ => fromWire ⟨b0, b1, b2, b3⟩

/-- A software argument put on an operand pin, or refused by the operand's name (60_exceptions R119). -/
def presentOperand (which : OperandName) (q : Rat) : Except Unpresentable Operand :=
  if PresentableOperand q then .ok (BitVec.ofInt 8 q.num) else .error (.operand which)

/-- A byte sequence on the decoder's pins (10_state R19, 20_memory R38): the first four bytes that exist on the wire pins, their
count on `dec_len`. DESIGN CHOICE (log 7): a pin the host has no byte for keeps what it held. Bytes of index 4 to 6 have no
pins. -/
def onPins (held : WireHeader) (bytes : List Byte) : ReceivedHeader :=
  { wire := { b0 := bytes.getD 0 held.b0, b1 := bytes.getD 1 held.b1, b2 := bytes.getD 2 held.b2, b3 := bytes.getD 3 held.b3 }
    len  := BitVec.ofNat 3 bytes.length }

/-- A request put on the pins, or refused (10_state R19, 60_exceptions R119). `held` is what the decoder's pins hold now. -/
def present (held : ReceivedHeader) : Request → Except Unpresentable Instr
  | .encode p s d t u => do
    let p ← presentOperand .priority p
    let s ← presentOperand .source s
    let d ← presentOperand .destination d
    let t ← presentOperand .destPort t
    let u ← presentOperand .sourcePort u
    return .encode p s d t u
  | .decode bytes =>
    if bytes.length ≤ 7 then
      let r := onPins held.wire bytes
      .ok (.decode r.wire.b0 r.wire.b1 r.wire.b2 r.wire.b3 r.len)
    else .error (.sequenceTooLong bytes.length)

/-- The request that presents an operation: `present` of it gives the operation back, up to the pins a short DECODE
does not drive. The bytes of index 4 to 6 of an over-long sequence reach no pin and are taken as zero. -/
def requestOf : Instr → Request
  | .encode p s d t u => .encode p.toNat s.toNat d.toNat t.toNat u.toNat
  | .decode b0 b1 b2 b3 len => .decode ([b0, b1, b2, b3, 0#8, 0#8, 0#8].take len.toNat)

end Sys2Proof
end

