-- ==== Sys2Proof/Machine/Operands.lean ====
section
/-!
DEFINITION. Operand forms (30_encoding R54): when an operand fits its field, the field it becomes, and the operand a decoded
field becomes when a host hands it back.
-/

namespace Sys2Proof.Machine

/-- An ENCODE operand that does not fit a field of width `w`: its value is at least 2 to the power `w` (00_scope R14). -/
def outOfRange (w : Nat) (v : Operand) : Bool := decide (2 ^ w ≤ v.toNat)

/-- The fields ENCODE packs: the low bits of each operand, and `ENC_RSV` in reserved (40_encode R66, R68, R69). -/
def fieldsOf (t : RoutingTuple) : Header :=
  { priority    := t.priority.setWidth 2
    source      := t.source.setWidth 5
    destination := t.destination.setWidth 5
    destPort    := t.destPort.setWidth 6
    sourcePort  := t.sourcePort.setWidth 6
    reserved    := Config.encRsv }

/-- The first five fields of a header as ENCODE operands: each `zext_8` of its field (30_encoding R54). -/
def tupleOf (h : Header) : RoutingTuple :=
  { priority    := h.priority.setWidth 8
    source      := h.source.setWidth 8
    destination := h.destination.setWidth 8
    destPort    := h.destPort.setWidth 8
    sourcePort  := h.sourcePort.setWidth 8 }

/-- The length check of DECODE: exactly 4 bytes (41_decode R82). -/
def lengthOk (len : Len) : Bool := len == 4#3

end Sys2Proof.Machine
end

