-- ==== Sys2Proof/Machine/Flags.lean ====
section
/-!
DEFINITION. The status indications (10_state R22): the out-of-range vector of ENCODE and the codes of the error outcomes.
-/

namespace Sys2Proof.Machine

/-- One bit of `enc_oor`, at place `i`. -/
def oorBit (i : Nat) (bad : Bool) : OorVector := if bad then 1#5 <<< i else 0#5

/-- `oor`: one bit per operand that is out of range (40_encode R67). -/
def oorVector (t : RoutingTuple) : OorVector :=
  oorBit 0 (outOfRange Config.priW t.priority) ||| oorBit 1 (outOfRange Config.srcW t.source)
    ||| oorBit 2 (outOfRange Config.dstW t.destination) ||| oorBit 3 (outOfRange Config.dportW t.destPort)
    ||| oorBit 4 (outOfRange Config.sportW t.sourcePort)

/-- The cause code of an error outcome; 0 stands for none (60_exceptions R105). They appear on no pin. -/
def causeCode : Option CodecError → Nat
  | none => 0
  | some (.encodeRange _) => 1
  | some (.decodeLength _) => 2

end Sys2Proof.Machine
end

