-- ==== Sys2Proof/Machine/State.lean ====
section
/-!
DEFINITION. The state of the model: the values on the interface pins of 10_state R18 and the operations the host has still to
perform. The codec itself "has no architectural state" (10_state R15): nothing here is remembered by it. An output is a field
only so that a step's answer is plain data (log 11); no operation reads one.
-/

namespace Sys2Proof.Machine

/-- The encoder's output pins (10_state R18). -/
structure EncoderOut where
  /-- `enc_wire0` to `enc_wire3`. -/
  wire : WireHeader
  /-- `enc_err`: 1 when the operation ended in EncodeRangeError. -/
  err  : Pin
  /-- `enc_oor`: one bit per operand that is out of range. -/
  oor  : OorVector
deriving DecidableEq, Repr

/-- The decoder's output pins (10_state R18). -/
structure DecoderOut where
  /-- `dec_priority`, `dec_source`, `dec_destination`, `dec_dest_port`, `dec_source_port`, `dec_reserved`. -/
  header : Header
  /-- `dec_err`: 1 when the operation ended in DecodeLengthError. -/
  err    : Pin
deriving DecidableEq, Repr

/-- The pins of both datapaths (10_state R18) and the host's operations to come, in the host's order (10_state R21,
70_reset_and_hazards R140). -/
structure State where
  /-- `enc_priority` to `enc_source_port`: what the host presents to the encoder. -/
  encIn   : RoutingTuple
  /-- What the encoder drives. -/
  encOut  : EncoderOut
  /-- `dec_wire0` to `dec_wire3` and `dec_len`: what the host presents to the decoder. -/
  decIn   : ReceivedHeader
  /-- What the decoder drives. -/
  decOut  : DecoderOut
  /-- The operations the host has chosen and not yet performed, the next one first (log 3). -/
  pending : List Request
deriving DecidableEq, Repr

/-- The machine never faults: both error outcomes are results of a total step (60_exceptions R117, R118; log 12), so this
closed type has no constructor. -/
inductive Fault where
deriving DecidableEq, Repr

/-- Why a step gives a request no meaning. -/
inductive Refusal where
  /-- Raised by `exec` for an operation that has no meaning yet: none is left. Safe: the model stops. -/
  | notModelled (mnemonic : String)
  /-- Raised by `step` for a request that cannot be put on the pins, as 60_exceptions R119 has it refused at the model's
  boundary. Safe: the model stops where the hardware cannot be reached at all. -/
  | notPresentable (why : Unpresentable)
deriving DecidableEq, Repr

/-- The machine before the first operation. There is no reset and no power-on value: outputs follow the inputs from the start
(70_reset_and_hazards R125 to R127). DESIGN CHOICE (log 2): the host drives all inputs to zero; R127 gives the outputs for
that case, `dec_err` = 1 among them. No operation is pending (log 3). -/
def State.reset : State :=
  { encIn   := { priority := 0#8, source := 0#8, destination := 0#8, destPort := 0#8, sourcePort := 0#8 }
    encOut  := { wire := { b0 := 0x00#8, b1 := 0x00#8, b2 := 0x00#8, b3 := 0x00#8 }, err := 0#1, oor := 0b00000#5 }
    decIn   := { wire := { b0 := 0x00#8, b1 := 0x00#8, b2 := 0x00#8, b3 := 0x00#8 }, len := 0#3 }
    decOut  := { header := { priority := 0#2, source := 0#5, destination := 0#5, destPort := 0#6, sourcePort := 0#6,
                             reserved := 0x00#8 }, err := 1#1 }
    pending := [] }

end Sys2Proof.Machine
end

