-- ==== Sys2Proof/Machine/Ops.lean ====
section
/-!
DEFINITION. The named operations over the pins: presenting operands, delivering a result, ending in an error (the whole of
the codec's "trap entry", 60_exceptions R112; there is no return from it, R113), and the two operations as functions from
operands to a result or a named error (60_exceptions R118).
-/

namespace Sys2Proof.Machine

/-- ENCODE as a function of its operands, under either policy (40_encode R69). -/
def encodeResult (policy : OorPolicy) (t : RoutingTuple) : Except CodecError WireHeader :=
  if policy = .fault ∧ oorVector t ≠ 0#5 then .error (.encodeRange (oorVector t)) else .ok (toWire (pack (fieldsOf t)))

/-- DECODE as a function of its operands (41_decode R85). -/
def decodeResult (r : ReceivedHeader) : Except CodecError Header :=
  if lengthOk r.len then .ok (unpack (fromWire r.wire)) else .error (.decodeLength r.len)

/-- The host drives the encoder's operand pins (10_state R17). -/
def State.presentEncoder (s : State) (t : RoutingTuple) : State := { s with encIn := t }

/-- The host drives the decoder's pins (10_state R17). -/
def State.presentDecoder (s : State) (r : ReceivedHeader) : State := { s with decIn := r }

/-- The encoder's outputs for a header: no error (40_encode R66). -/
def State.deliverWire (s : State) (b : WireHeader) : State :=
  { s with encOut := { wire := b, err := 0#1, oor := 0b00000#5 } }

/-- The decoder's outputs for a header: no error (41_decode R81). -/
def State.deliverHeader (s : State) (h : Header) : State := { s with decOut := { header := h, err := 0#1 } }

/-- Ending in an error: the error pin, the information recorded, and the substitutes on the data pins of that datapath
(40_encode R70, 41_decode R84). Nothing is saved and nothing else changes (60_exceptions R112). -/
def State.raiseError (s : State) : CodecError → State
  | .encodeRange oor =>
    { s with encOut := { wire := { b0 := 0x00#8, b1 := 0x00#8, b2 := 0x00#8, b3 := 0x00#8 }, err := 1#1, oor := oor } }
  | .decodeLength _ => { s with decOut := { header := Config.emptyHeader, err := 1#1 } }

/-- One evaluation of the encoder on operands the host presents (10_state R17, 40_encode R69). -/
def State.runEncoder (s : State) (policy : OorPolicy) (t : RoutingTuple) : State :=
  match encodeResult policy t with
  | .ok b => (s.presentEncoder t).deliverWire b
  | .error e => (s.presentEncoder t).raiseError e

/-- One evaluation of the decoder on bytes and a length the host presents (10_state R17, 41_decode R85). -/
def State.runDecoder (s : State) (r : ReceivedHeader) : State :=
  match decodeResult r with
  | .ok h => (s.presentDecoder r).deliverHeader h
  | .error e => (s.presentDecoder r).raiseError e

end Sys2Proof.Machine
end

