-- ==== Sys2Proof/Machine/Decoder.lean ====
section
/-!
DEFINITION. The meaning of DECODE (41_decode R80 to R85).
-/

namespace Sys2Proof.Machine

/-- DECODE (41_decode R85): the decoder's pins carry the bytes and the length and the outputs they determine; nothing else
changes (R88). -/
def execDecode (wire0 wire1 wire2 wire3 : Byte) (len : Len) (s : State) : Host.Outcome State Fault Refusal :=
  .next (s.runDecoder ⟨⟨wire0, wire1, wire2, wire3⟩, len⟩)

end Sys2Proof.Machine
end

