-- ==== Sys2Proof/Machine/Encoder.lean ====
section
/-!
DEFINITION. The meaning of ENCODE (40_encode R65 to R70) on this hardware, whose policy is `Config.hardware`.
-/

namespace Sys2Proof.Machine

/-- ENCODE (40_encode R69): the encoder's pins carry the operands and the outputs they determine; nothing else changes (R72). -/
def execEncode (priority source destination destPort sourcePort : Operand) (s : State) : Host.Outcome State Fault Refusal :=
  .next (s.runEncoder Config.hardware.oorPolicy ⟨priority, source, destination, destPort, sourcePort⟩)

end Sys2Proof.Machine
end

