-- ==== Sys2Proof/Machine/Dispatch.lean ====
section
/-!
DEFINITION. One arm per operation of the opcode table (30_encoding R57).
-/

namespace Sys2Proof.Machine

def exec (i : Instr) (s : State) : Host.Outcome State Fault Refusal :=
  match i with
  | .encode p so d t u => Sys2Proof.Machine.execEncode p so d t u s
  | .decode b0 b1 b2 b3 n => Sys2Proof.Machine.execDecode b0 b1 b2 b3 n s

end Sys2Proof.Machine
end

