-- ==== Sys2Proof/Machine/Step.lean ====
section
/-!
DEFINITION. One step: the host's next operation is put on the pins of its datapath and evaluated (10_state R17). What cannot
be put on the pins is refused at this boundary (60_exceptions R119).
-/

namespace Sys2Proof.Machine

/-- One step. The next request of the host is presented and performed; with none pending the pins stay as they are, since the
codec never halts (70_reset_and_hazards R140; log 3). -/
def step (s : State) : Host.Outcome State Fault Refusal :=
  match s.pending with
  | [] => .next s
  | r :: rest =>
    match present s.decIn r with
    | .ok i => exec i { s with pending := rest }
    | .error why => .refused (.notPresentable why)

/-- `s` with the operation of a row's word made the host's next one (log 3, log 4). -/
def State.withFetchWord (s : State) (nbits w : Nat) : State :=
  match decodeTableWord nbits w with
  | some i => { s with pending := requestOf i :: s.pending }
  | none => s

end Sys2Proof.Machine
end

