-- ==== Sys2Proof/Machine/HostSide.lean ====
section
/-!
DEFINITION. What the spec records of the host around the codec, as plain functions: the frame (20_memory R36 to R39,
30_encoding R64), the inbound and outbound use of the codec (70_reset_and_hazards R132, R133), the reply header (40_encode R77)
and the boundary wrapper that 60_exceptions R119 recommends. All of it is outside the hardware: none of it is a step
(00_scope R5).
-/

namespace Sys2Proof.Machine

/-- The host's configuration, supplied at process start; the codec reads none of it (00_scope R10). DESIGN CHOICE (log 15): the
spec gives the three values no width; each is held as the value on an 8-bit operand pin, so a configured value that is negative
or at or above 256 has no term here (`wrapEncode` answers it). -/
structure HostConfig where
  nodeId  : Operand
  peerId  : Operand
  appPort : Operand
deriving DecidableEq, Repr

/-- `FRAME`: address byte, wire header, payload (30_encoding R64, 20_memory R36). -/
def frame (address : Byte) (b : WireHeader) (payload : List Byte) : List Byte := [address] ++ wireBytes b ++ payload

/-- The header region of a frame: the bytes at offsets 1 to 4 that exist (20_memory R38). -/
def headerRegion (f : List Byte) : List Byte := (f.drop 1).take 4

/-- What `UNFRAME` takes a frame apart into (30_encoding R64). An empty frame has no address byte (91_not_in_source N21;
log 13). -/
structure Unframed where
  address : Option Byte
  header  : List Byte
  count   : Nat
  payload : List Byte
deriving DecidableEq, Repr

/-- `UNFRAME` (30_encoding R64). -/
def unframe (f : List Byte) : Unframed :=
  { address := f.head?, header := headerRegion f, count := (headerRegion f).length, payload := f.drop 5 }

/-- The request a host makes of DECODE for a frame: its header region and the count of it (20_memory R38). -/
def frameRequest (f : List Byte) : Request := .decode (headerRegion f)

/-- The operands of the reply header: priority 1, this node, the peer, the application port, 63 (40_encode R77). -/
def replyTuple (c : HostConfig) : RoutingTuple :=
  { priority := 1#8, source := c.nodeId, destination := c.peerId, destPort := c.appPort, sourcePort := 63#8 }

/-- The outbound path: the reply frame, whose address byte is `PEER_ID`, or none where ENCODE ended in an error, since the
host must not transmit the substitute bytes (70_reset_and_hazards R133, R137). -/
def replyFrame (policy : OorPolicy) (c : HostConfig) (text : List Byte) : Option (List Byte) :=
  match encodeResult policy (replyTuple c) with
  | .ok b => some (frame c.peerId b text)
  | .error _ => none

/-- `GET_DATA`, the only command code with defined behaviour (20_memory R39). -/
def getData : Int := 5

/-- The inbound path: the decoded header, or the empty header after an error, which is not fatal; and the reply frame, if the
payload is the one recognised command (70_reset_and_hazards R132, R133). How a payload parses is not in the source beyond
"ASCII decimal integer", so `parse` is an argument (log 13), as is the snapshot's text. DESIGN CHOICE (log 14): whether a receiver
checks the address byte against the decoded destination is not stated (20_memory R37); this path never compares them. -/
def dispatchFrame (policy : OorPolicy) (c : HostConfig) (parse : List Byte → Option Int) (text : List Byte)
    (held : WireHeader) (f : List Byte) : Header × Option (List Byte) :=
  let header := match decodeResult (onPins held (headerRegion f)) with
    | .ok fields => fields
    | .error _ => Config.emptyHeader
  (header, if parse (unframe f).payload = some getData then replyFrame policy c text else none)

/-- A software argument is a value of a field of width `w`. -/
def argumentFits (w : Nat) (q : Rat) : Bool := decide (q.den = 1 ∧ 0 ≤ q.num ∧ q.num < 2 ^ w)

/-- The wrapper recommended for ENCODE under `FAULT`: an argument that cannot be presented is reported as EncodeRangeError
with the bit of its operand set (60_exceptions R119). DESIGN CHOICE (log 13): where several arguments offend, the bits of all of
them are set at once, those merely out of range among them. -/
def wrapEncode (p s d t u : Rat) : Except CodecError WireHeader :=
  let oor := oorBit 0 (!argumentFits Config.priW p) ||| oorBit 1 (!argumentFits Config.srcW s)
    ||| oorBit 2 (!argumentFits Config.dstW d) ||| oorBit 3 (!argumentFits Config.dportW t)
    ||| oorBit 4 (!argumentFits Config.sportW u)
  if oor = 0#5 then
    encodeResult .fault ⟨BitVec.ofInt 8 p.num, BitVec.ofInt 8 s.num, BitVec.ofInt 8 d.num, BitVec.ofInt 8 t.num,
      BitVec.ofInt 8 u.num⟩
  else .error (.encodeRange oor)

/-- The wrapper recommended for DECODE: a sequence that is too long for `dec_len` is reported as DecodeLengthError
(60_exceptions R119). DESIGN CHOICE (log 13): the length it records is then 7, the largest the pin carries. -/
def wrapDecode (bytes : List Byte) : Except CodecError Header :=
  match bytes with
  | [b0, b1, b2, b3] => .ok (unpack (fromWire ⟨b0, b1, b2, b3⟩))
  | _ => .error (.decodeLength (BitVec.ofNat 3 (min bytes.length 7)))

end Sys2Proof.Machine
end

