-- ==== Sys2Proof/Machine/StringMethod.lean ====
section
/-!
DEFINITION. The string method the source reports of the reference implementation, for comparison (30_encoding R53): fields
as binary numerals, concatenated, regrouped into bytes, emitted in reverse. No operation of the codec uses it.
-/

namespace Sys2Proof.Machine

/-- A field as a binary numeral of exactly its width, most significant digit first. -/
def numeral {w : Nat} (v : BitVec w) : List Bool := (List.range w).map fun i => v.getLsbD (w - 1 - i)

/-- The logical string of 32 digits (30_encoding R45, R53). -/
def headerString (h : Header) : List Bool :=
  numeral h.priority ++ numeral h.source ++ numeral h.destination ++ numeral h.destPort ++ numeral h.sourcePort
    ++ numeral h.reserved

/-- Piece `g` of the string: 8 digits, piece 0 first. -/
def piece (digits : List Bool) (g : Nat) : List Bool := (digits.drop (8 * g)).take 8

/-- A piece read as a binary numeral. -/
def readNumeral (digits : List Bool) : Nat := digits.foldl (fun n d => 2 * n + d.toNat) 0

/-- The bytes the string method emits, in transmission order: pieces 3, 2, 1, 0. -/
def stringMethod (h : Header) : List Nat :=
  [3, 2, 1, 0].map fun g => readNumeral (piece (headerString h) g)

end Sys2Proof.Machine
end

