-- ==== Sys2Proof/Machine/Wiring.lean ====
section
/-!
DEFINITION. The two wirings an integrator may make between the datapaths, one at a time (70_reset_and_hazards R136). Making
both at once is forbidden there, and the model has no move for it (log 8).
-/

namespace Sys2Proof.Machine

/-- The round-trip check: the encoder's wire outputs feed the decoder's wire inputs, with `dec_len` tied to 4. -/
def State.loopBack (s : State) (policy : OorPolicy) (t : RoutingTuple) : State :=
  let e := s.runEncoder policy t
  e.runDecoder { wire := e.encOut.wire, len := 4#3 }

/-- The header re-packer: the decoder's field outputs, zero-extended, feed the encoder's operand inputs. -/
def State.rePack (s : State) (policy : OorPolicy) (r : ReceivedHeader) : State :=
  let d := s.runDecoder r
  d.runEncoder policy (tupleOf d.decOut.header)

end Sys2Proof.Machine
end

