-- ==== Sys2Proof/Machine/Gates.lean ====
section
/-!
DEFINITION. The pin-level view (10_state R18, R19): each output pin of a datapath as an equation over its input pins, written
from the spec's gate equations and not from the header word. The two views are stated equal in the obligations.
-/

namespace Sys2Proof.Machine

/-- The encoder's outputs under `FAULT`, pin by pin: the range check on the upper bits of each operand (40_encode R67), the
per-byte equations (R71), and the outputs of an error (R70). -/
def encoderGates (t : RoutingTuple) : EncoderOut :=
  let oor : OorVector :=
    (if t.sourcePort.extractLsb' 6 2 ≠ 0#2 then 0b10000#5 else 0#5) ||| (if t.destPort.extractLsb' 6 2 ≠ 0#2 then 0b01000#5 else 0#5)
      ||| (if t.destination.extractLsb' 5 3 ≠ 0#3 then 0b00100#5 else 0#5) ||| (if t.source.extractLsb' 5 3 ≠ 0#3 then 0b00010#5 else 0#5)
      ||| (if t.priority.extractLsb' 2 6 ≠ 0#6 then 0b00001#5 else 0#5)
  if oor = 0#5 then
    { wire := { b3 := (t.priority <<< 6) ||| (t.source <<< 1) ||| (t.destination >>> 4)
                b2 := ((t.destination &&& 0x0F#8) <<< 4) ||| (t.destPort >>> 2)
                b1 := ((t.destPort &&& 0x03#8) <<< 6) ||| t.sourcePort
                b0 := 0x00#8 }
      err := 0#1, oor := 0#5 }
  else { wire := { b0 := 0x00#8, b1 := 0x00#8, b2 := 0x00#8, b3 := 0x00#8 }, err := 1#1, oor := oor }

/-- The decoder's outputs, pin by pin: the per-field equations (41_decode R87) where the length is 4, and the empty header
with the error pin elsewhere (R84). -/
def decoderGates (r : ReceivedHeader) : DecoderOut :=
  if r.len = 4#3 then
    { header := { priority    := r.wire.b3.extractLsb' 6 2
                  source      := r.wire.b3.extractLsb' 1 5
                  destination := r.wire.b3.extractLsb' 0 1 ++ r.wire.b2.extractLsb' 4 4
                  destPort    := r.wire.b2.extractLsb' 0 4 ++ r.wire.b1.extractLsb' 6 2
                  sourcePort  := r.wire.b1.extractLsb' 0 6
                  reserved    := r.wire.b0 }
      err := 0#1 }
  else
    { header := { priority := 0#2, source := 0#5, destination := 0#5, destPort := 0#6, sourcePort := 0#6, reserved := 0x00#8 }
      err := 1#1 }

end Sys2Proof.Machine
end

