-- ==== Sys2Proof/Safety.lean ====
section
/-!
DEFINITION. What counts as a state of the hardware (every output is the function of the inputs), and what a host may take from
it: an operation's result, read behind its error pin, and the results of a run.
-/

namespace Sys2Proof.Machine

/-- The encoder's outputs are the function of its inputs (10_state R17, 70_reset_and_hazards R126). -/
abbrev EncoderDriven (s : State) : Prop := s.encOut = encoderGates s.encIn

/-- The decoder's outputs are the function of its inputs (10_state R17, 70_reset_and_hazards R126). -/
abbrev DecoderDriven (s : State) : Prop := s.decOut = decoderGates s.decIn

/-- Every output pin equals the function of the input pins: the states the hardware can be in. -/
abbrev Driven (s : State) : Prop := EncoderDriven s ∧ DecoderDriven s

/-- The result of an operation, the error kept visible (60_exceptions R118). -/
inductive Result where
  | encoded (r : Except CodecError WireHeader)
  | decoded (r : Except CodecError Header)

/-- The result the codec's rules give an operation, from its operands alone (20_memory R44). -/
def resultOf : Instr → Result
  | .encode p s d t u => .encoded (encodeResult Config.hardware.oorPolicy ⟨p, s, d, t, u⟩)
  | .decode b0 b1 b2 b3 len => .decoded (decodeResult ⟨⟨b0, b1, b2, b3⟩, len⟩)

/-- What a host takes from the encoder's pins: it tests `enc_err` before it uses the bytes (70_reset_and_hazards R137). -/
def takeEncoded (s : State) : Except CodecError WireHeader :=
  if s.encOut.err = 1#1 then .error (.encodeRange s.encOut.oor) else .ok s.encOut.wire

/-- What a host takes from the decoder's pins: it tests `dec_err` before it uses the fields (70_reset_and_hazards R137). -/
def takeDecoded (s : State) : Except CodecError Header :=
  if s.decOut.err = 1#1 then .error (.decodeLength s.decIn.len) else .ok s.decOut.header

/-- What a host takes after an operation, from the datapath it used. -/
def takeResult (dp : Datapath) (s : State) : Result :=
  match dp with
  | .encoder => .encoded (takeEncoded s)
  | .decoder => .decoded (takeDecoded s)

/-- A run: the operations a host chooses, each with the result it takes (70_reset_and_hazards R140). -/
def hostRun (s : State) : List Instr → List Result
  | [] => []
  | i :: rest =>
    match exec i s with
    | .next s' => takeResult i.datapath s' :: hostRun s' rest
    | .fault _ => []
    | .refused _ => []

/-- The next state of an outcome, if there is one. -/
def nextOf : Host.Outcome State Fault Refusal → Option State
  | .next s => some s
  | .fault _ => none
  | .refused _ => none

end Sys2Proof.Machine
end

