-- ==== Sys2Proof/Certificates/Slice0/Obligations.lean ====
section
/-!
DEFINITION. The statements for the provers, from the numbered rules of spec/. Each docstring names the rule it formalises, or
says that it rests on a choice of the model's own.
-/

open Sys2Proof Sys2Proof.Machine

/-! ## Reset and the invariant -/

/-- 70_reset_and_hazards R127, 10_state R27: with all inputs at zero the outputs are wires 00 00 00 00, `enc_err` 0, `enc_oor` 0,
all fields 0, `dec_err` 1. That the inputs are zero at the start is the model's choice (log 2), as is the empty list (log 3). -/
def Obligations.ResetPinsAreThoseOfZeroInputs : Prop :=
  State.reset.encIn = ⟨0#8, 0#8, 0#8, 0#8, 0#8⟩ ∧ State.reset.decIn = ⟨⟨0#8, 0#8, 0#8, 0#8⟩, 0#3⟩ ∧
  State.reset.encOut = ⟨⟨0x00#8, 0x00#8, 0x00#8, 0x00#8⟩, 0#1, 0b00000#5⟩ ∧
  State.reset.decOut = ⟨⟨0#2, 0#5, 0#5, 0#6, 0#6, 0x00#8⟩, 1#1⟩ ∧ State.reset.pending = []

/-- 70_reset_and_hazards R126: the outputs are the function of the inputs from the start. -/
def Obligations.ResetOutputsFollowInputs : Prop := Driven State.reset

/-- 10_state R17, 70_reset_and_hazards R126: every step keeps every output pin equal to its gate equation over the input pins. -/
def Obligations.EveryStepKeepsOutputsFollowingInputs : Prop :=
  ∀ s s' : State, Driven s → step s = .next s' → Driven s'

/-- 10_state R17: whatever the pins held before, an operation leaves its own datapath's outputs equal to the gate equations over
the operands it presented. -/
def Obligations.OperationDrivesItsOwnDatapath : Prop :=
  (∀ (p so d t u : Operand) (s s' : State), exec (.encode p so d t u) s = .next s' →
    s'.encIn = ⟨p, so, d, t, u⟩ ∧ s'.encOut = encoderGates ⟨p, so, d, t, u⟩) ∧
  (∀ (b0 b1 b2 b3 : Byte) (n : Len) (s s' : State), exec (.decode b0 b1 b2 b3 n) s = .next s' →
    s'.decIn = ⟨⟨b0, b1, b2, b3⟩, n⟩ ∧ s'.decOut = decoderGates ⟨⟨b0, b1, b2, b3⟩, n⟩)

/-! ## The header word -/

/-- 30_encoding R46: each in-place mask is `pack` of the header with that one field all ones, masking `W` with it leaves that
field alone at its shift, and the six masks are disjoint and cover all 32 bits. -/
def Obligations.FieldMasksDisjointAndCover : Prop :=
  fieldMasks =
    [pack ⟨0b11#2, 0#5, 0#5, 0#6, 0#6, 0#8⟩, pack ⟨0#2, 0x1F#5, 0#5, 0#6, 0#6, 0#8⟩, pack ⟨0#2, 0#5, 0x1F#5, 0#6, 0#6, 0#8⟩,
     pack ⟨0#2, 0#5, 0#5, 0x3F#6, 0#6, 0#8⟩, pack ⟨0#2, 0#5, 0#5, 0#6, 0x3F#6, 0#8⟩, pack ⟨0#2, 0#5, 0#5, 0#6, 0#6, 0xFF#8⟩] ∧
  (∀ h : Header, fieldMasks.map (fun m => pack h &&& m) =
    [h.priority.setWidth 32 <<< 30, h.source.setWidth 32 <<< 25, h.destination.setWidth 32 <<< 20,
     h.destPort.setWidth 32 <<< 14, h.sourcePort.setWidth 32 <<< 8, h.reserved.setWidth 32]) ∧
  fieldMasks.Pairwise (fun a b => a &&& b = 0#32) ∧ fieldMasks.foldl (fun a b => a ||| b) 0#32 = 0xFFFFFFFF#32

/-- 30_encoding R49: the concatenation and the shift-and-or form of `pack`, and the sum it may equally be read as. -/
def Obligations.PackIsConcatenation : Prop :=
  ∀ h : Header,
    pack h = h.priority ++ h.source ++ h.destination ++ h.destPort ++ h.sourcePort ++ h.reserved ∧
    pack h = (h.priority.setWidth 32 <<< 30) ||| (h.source.setWidth 32 <<< 25) ||| (h.destination.setWidth 32 <<< 20)
      ||| (h.destPort.setWidth 32 <<< 14) ||| (h.sourcePort.setWidth 32 <<< 8) ||| h.reserved.setWidth 32 ∧
    (pack h).toNat = h.priority.toNat * 2 ^ 30 + h.source.toNat * 2 ^ 25 + h.destination.toNat * 2 ^ 20
      + h.destPort.toNat * 2 ^ 14 + h.sourcePort.toNat * 2 ^ 8 + h.reserved.toNat

/-- 30_encoding R50: `unpack` as slices and as shift and mask, and its two inverse laws. -/
def Obligations.UnpackSlicesByBitWidth : Prop :=
  (∀ w : Word,
    unpack w = ⟨w.extractLsb' 30 2, w.extractLsb' 25 5, w.extractLsb' 20 5, w.extractLsb' 14 6, w.extractLsb' 8 6,
      w.extractLsb' 0 8⟩ ∧
    (unpack w).priority.setWidth 32 = (w >>> 30) &&& 0x03#32 ∧ (unpack w).source.setWidth 32 = (w >>> 25) &&& 0x1F#32 ∧
    (unpack w).destination.setWidth 32 = (w >>> 20) &&& 0x1F#32 ∧ (unpack w).destPort.setWidth 32 = (w >>> 14) &&& 0x3F#32 ∧
    (unpack w).sourcePort.setWidth 32 = (w >>> 8) &&& 0x3F#32 ∧ (unpack w).reserved.setWidth 32 = w &&& 0xFF#32 ∧
    pack (unpack w) = w) ∧
  ∀ f : Header, unpack (pack f) = f

/-- 42_laws R94: `pack` and `unpack` are inverse bijections between 6-tuples and words. -/
def Obligations.PackUnpackInverseBijections : Prop :=
  (∀ f : Header, unpack (pack f) = f) ∧ (∀ w : Word, pack (unpack w) = w) ∧
  Function.Bijective pack ∧ Function.Bijective unpack

/-- 42_laws R95: `to_wire` and `from_wire` are inverse bijections, and reversing four bytes is its own inverse. -/
def Obligations.WireConversionsInverseBijections : Prop :=
  (∀ w : Word, fromWire (toWire w) = w) ∧ (∀ b : WireHeader, toWire (fromWire b) = b) ∧
  Function.Bijective toWire ∧ Function.Bijective fromWire ∧
  (∀ w : Word, wireBytes (toWire w) = [group w 0, group w 1, group w 2, group w 3].reverse) ∧
  (∀ b : WireHeader, (wireBytes b).reverse.reverse = wireBytes b)

/-- 30_encoding R52: the two forms of `from_wire`, and its inverse laws with `to_wire`. -/
def Obligations.FromWireIsReversedConcatenation : Prop :=
  (∀ b : WireHeader, fromWire b = b.b3 ++ b.b2 ++ b.b1 ++ b.b0 ∧
    fromWire b = (b.b3.setWidth 32 <<< 24) ||| (b.b2.setWidth 32 <<< 16) ||| (b.b1.setWidth 32 <<< 8) ||| b.b0.setWidth 32 ∧
    toWire (fromWire b) = b) ∧
  ∀ w : Word, fromWire (toWire w) = w

/-- 20_memory R32: wire byte `i` is `W[8i+7:8i]`, the least significant byte first; it is group `3 - i`. -/
def Obligations.WireByteIsSliceOfWord : Prop :=
  ∀ (w : Word) (i : Fin 4),
    (wireBytes (toWire w))[i.val]? = some (w.extractLsb' (8 * i.val) 8) ∧
    (wireBytes (toWire w))[i.val]? = some (group w (3 - i)) ∧
    ∀ k : Nat, k < 8 → (w.extractLsb' (8 * i.val) 8).getLsbD k = w.getLsbD (8 * i.val + k)

/-- 30_encoding R48: wire byte `i` is group `3 - i`, and the wire map field by field and bit by bit. -/
def Obligations.WireMapOfFields : Prop :=
  (∀ w : Word, toWire w = { b0 := group w 3, b1 := group w 2, b2 := group w 1, b3 := group w 0 }) ∧
  ∀ h : Header,
    toWire (pack h) =
      { b0 := h.reserved
        b1 := h.destPort.extractLsb' 0 2 ++ h.sourcePort
        b2 := h.destination.extractLsb' 0 4 ++ h.destPort.extractLsb' 2 4
        b3 := h.priority ++ h.source ++ h.destination.extractLsb' 4 1 }

/-- 30_encoding R53: for in-range fields the string method gives exactly `to_wire(pack(...))`. -/
def Obligations.StringMethodGivesTheSameBytes : Prop :=
  ∀ h : Header, stringMethod h = (wireBytes (toWire (pack h))).map BitVec.toNat

/-- 20_memory R34: what a little-endian and a big-endian load of the four bytes obtain, and the example. -/
def Obligations.MixedWidthLoads : Prop :=
  (∀ w : Word, loadLittle (toWire w) = w.toNat ∧ loadBig (toWire w) = (swapBytes w).toNat ∧
    swapBytes w = w.extractLsb' 0 8 ++ w.extractLsb' 8 8 ++ w.extractLsb' 16 8 ++ w.extractLsb' 24 8) ∧
  loadLittle ⟨0x00#8, 0xBF#8, 0x32#8, 0x4A#8⟩ = 0x4A32BF00 ∧ loadBig ⟨0x00#8, 0xBF#8, 0x32#8, 0x4A#8⟩ = 0x00BF324A ∧
  unpack 0x00BF324A#32 = ⟨0#2, 0#5, 11#5, 60#6, 50#6, 0x4A#8⟩ ∧ unpack 0x4A32BF00#32 = ⟨1#2, 5#5, 3#5, 10#6, 63#6, 0x00#8⟩

/-! ## Words of the opcode table, requests and the step -/

/-- 30_encoding R57: for every well-formed operation, its row reads its header word back as it; and every word a row reads is
the word of the well-formed operation read. -/
def Obligations.RowReadsBackEveryWellFormedWord : Prop :=
  (∀ i : Instr, i.WellFormed → decodeRow i.datapath (encodeWord i) = .ok i) ∧
  (∀ (dp : Datapath) (w : Word) (i : Instr), decodeRow dp w = .ok i →
    i.datapath = dp ∧ i.WellFormed ∧ encodeWord i = w)

/-- The model's choice (log 4) among the overlapping rows of 30_encoding R57: a word with a zero reserved byte is read as
the ENCODE that produces it, any other as the DECODE that is handed it. -/
def Obligations.TableWordReadBySpecificRow : Prop :=
  ∀ w : Word,
    (w.extractLsb' 0 8 = 0#8 →
      decodeTableWord 32 w.toNat = some (.encode ((unpack w).priority.setWidth 8) ((unpack w).source.setWidth 8)
        ((unpack w).destination.setWidth 8) ((unpack w).destPort.setWidth 8) ((unpack w).sourcePort.setWidth 8))) ∧
    (w.extractLsb' 0 8 ≠ 0#8 →
      decodeTableWord 32 w.toNat = some (.decode (w.extractLsb' 0 8) (w.extractLsb' 8 8) (w.extractLsb' 16 8)
        (w.extractLsb' 24 8) 4#3))

/-- Words of 95_test_vectors (E21, E25, T13, T14) read as the operations they stand for (30_encoding R57, log 4). -/
def Obligations.VectorWordsDecode : Prop :=
  decodeTableWord 32 0x4A32BF00 = some (.encode 1#8 5#8 3#8 10#8 63#8) ∧
  decodeTableWord 32 0x94329100 = some (.encode 2#8 10#8 3#8 10#8 17#8) ∧
  decodeTableWord 32 0xDEADBEEF = some (.decode 0xEF#8 0xBE#8 0xAD#8 0xDE#8 4#3) ∧
  decodeTableWord 32 0x46113F80 = some (.decode 0x80#8 0x3F#8 0x11#8 0x46#8 4#3)

/-- 10_state R19: an operation's request, put on the pins, is that operation. A DECODE of four or more bytes drives all four
pins; a shorter one leaves the others as they were (log 7). -/
def Obligations.RequestPresentsItsOperation : Prop :=
  (∀ (p so d t u : Operand) (held : ReceivedHeader),
    present held (requestOf (.encode p so d t u)) = .ok (.encode p so d t u)) ∧
  (∀ (b0 b1 b2 b3 : Byte) (n : Len) (held : ReceivedHeader), 4 ≤ n.toNat ∨ held.wire = ⟨b0, b1, b2, b3⟩ →
    present held (requestOf (.decode b0 b1 b2 b3 n)) = .ok (.decode b0 b1 b2 b3 n))

/-- A step performs one operation of the host's, in the host's order (10_state R17, R21): the one at the head of its list, on the
state with that request taken off. That the order stands in a list, and that with nothing pending the state stays, are the
model's choices (log 3). A request that cannot be presented is refused (60_exceptions R119), by the reason's name (log 10). -/
def Obligations.StepRunsTheNextOperation : Prop :=
  (∀ (s : State) (r : Request) (rest : List Request) (i : Instr), s.pending = r :: rest → present s.decIn r = .ok i →
    step s = exec i { s with pending := rest }) ∧
  (∀ (s : State) (r : Request) (rest : List Request) (why : Unpresentable), s.pending = r :: rest →
    present s.decIn r = .error why → step s = .refused (.notPresentable why)) ∧
  (∀ s : State, s.pending = [] → step s = .next s)

/-- The operation of a row's word, placed as the host's next one, is exactly what the next step runs (log 3, log 4). -/
def Obligations.PlacedTableWordRuns : Prop :=
  ∀ (s : State) (nbits w : Nat) (i : Instr), decodeTableWord nbits w = some i →
    step (s.withFetchWord nbits w) = exec i s

/-- 60_exceptions R119: a step is refused exactly when the next request has an ENCODE argument that is negative, fractional or
at or above 256, or a byte sequence of more than 7 bytes; otherwise it answers a next state. That it answers one with nothing
pending too is the model's choice (log 3), and so is the name a refusal carries (log 10). -/
def Obligations.StepRefusesExactlyTheUnpresentable : Prop :=
  ∀ s : State,
    ((∃ why, step s = .refused why) ↔ ∃ r rest, s.pending = r :: rest ∧ ¬ r.Presentable) ∧
    ((∃ s', step s = .next s') ↔ ∀ r rest, s.pending = r :: rest → r.Presentable) ∧
    (∀ bytes rest, s.pending = .decode bytes :: rest → 7 < bytes.length →
      step s = .refused (.notPresentable (.sequenceTooLong bytes.length)))

/-! ## ENCODE -/

/-- 40_encode R66: ENCODE of a valid tuple, the same under both policies. -/
def Obligations.EncodeOfValidTuple : Prop :=
  ∀ (p so d t u : Operand) (s : State), RoutingTuple.Valid ⟨p, so, d, t, u⟩ →
    let s' : State := { s with
      encIn  := ⟨p, so, d, t, u⟩
      encOut := { wire := toWire (pack ⟨p.extractLsb' 0 2, so.extractLsb' 0 5, d.extractLsb' 0 5, t.extractLsb' 0 6,
                                    u.extractLsb' 0 6, 0x00#8⟩), err := 0#1, oor := 0b00000#5 } }
    exec (.encode p so d t u) s = .next s' ∧ ∀ policy, s.runEncoder policy ⟨p, so, d, t, u⟩ = s'

/-- 40_encode R67, R70: an operand out of range, one bit per offender, the error outcome and its outputs. -/
def Obligations.EncodeOutOfRangeEndsInError : Prop :=
  ∀ (p so d t u : Operand) (s : State),
    4 ≤ p.toNat ∨ 32 ≤ so.toNat ∨ 32 ≤ d.toNat ∨ 64 ≤ t.toNat ∨ 64 ≤ u.toNat →
    ∃ oor : OorVector, oor ≠ 0b00000#5 ∧
      (oor.getLsbD 0 = true ↔ 4 ≤ p.toNat) ∧ (oor.getLsbD 1 = true ↔ 32 ≤ so.toNat) ∧ (oor.getLsbD 2 = true ↔ 32 ≤ d.toNat) ∧
      (oor.getLsbD 3 = true ↔ 64 ≤ t.toNat) ∧ (oor.getLsbD 4 = true ↔ 64 ≤ u.toNat) ∧
      (4 ≤ p.toNat ↔ p.extractLsb' 2 6 ≠ 0#6) ∧ (32 ≤ so.toNat ↔ so.extractLsb' 5 3 ≠ 0#3) ∧
      (32 ≤ d.toNat ↔ d.extractLsb' 5 3 ≠ 0#3) ∧ (64 ≤ t.toNat ↔ t.extractLsb' 6 2 ≠ 0#2) ∧
      (64 ≤ u.toNat ↔ u.extractLsb' 6 2 ≠ 0#2) ∧
      encodeResult .fault ⟨p, so, d, t, u⟩ = .error (.encodeRange oor) ∧
      exec (.encode p so d t u) s = .next { s with
        encIn  := ⟨p, so, d, t, u⟩
        encOut := { wire := ⟨0x00#8, 0x00#8, 0x00#8, 0x00#8⟩, err := 1#1, oor := oor } }

/-- 40_encode R68: the policy `MASK`: the header of each operand's low bits, nothing signalled, whatever the operands; so an operand
of a field of width `w` behaves as its value modulo `2^w`. The last clause says so of the word itself and of every tuple of
reduced operands under `FAULT`. -/
def Obligations.MaskPolicyReducesEveryOperand : Prop :=
  ∀ (t : RoutingTuple) (s : State),
    s.runEncoder .mask t = { s with
      encIn  := t
      encOut := { wire := toWire (pack ⟨t.priority.extractLsb' 0 2, t.source.extractLsb' 0 5, t.destination.extractLsb' 0 5,
                                    t.destPort.extractLsb' 0 6, t.sourcePort.extractLsb' 0 6, 0x00#8⟩),
                  err := 0#1, oor := 0b00000#5 } } ∧
    loadLittle (s.runEncoder .mask t).encOut.wire =
      t.priority.toNat % 2 ^ 2 * 2 ^ 30 + t.source.toNat % 2 ^ 5 * 2 ^ 25 + t.destination.toNat % 2 ^ 5 * 2 ^ 20
        + t.destPort.toNat % 2 ^ 6 * 2 ^ 14 + t.sourcePort.toNat % 2 ^ 6 * 2 ^ 8 ∧
    ∀ v : RoutingTuple, v.priority.toNat = t.priority.toNat % 2 ^ 2 → v.source.toNat = t.source.toNat % 2 ^ 5 →
      v.destination.toNat = t.destination.toNat % 2 ^ 5 → v.destPort.toNat = t.destPort.toNat % 2 ^ 6 →
      v.sourcePort.toNat = t.sourcePort.toNat % 2 ^ 6 →
      (s.runEncoder .mask t).encOut = (s.runEncoder .fault v).encOut

/-- 40_encode R71: the per-byte output equations of every result without error, under either policy. -/
def Obligations.EncodePerByteEquations : Prop :=
  ∀ (policy : OorPolicy) (t : RoutingTuple) (b : WireHeader), encodeResult policy t = .ok b →
    let p := t.priority.extractLsb' 0 2
    let s := t.source.extractLsb' 0 5
    let d := t.destination.extractLsb' 0 5
    let dp := t.destPort.extractLsb' 0 6
    let u := t.sourcePort.extractLsb' 0 6
    b.b3 = p ++ s ++ d.extractLsb' 4 1 ∧
    b.b3 = (p.setWidth 8 <<< 6) ||| (s.setWidth 8 <<< 1) ||| (d.setWidth 8 >>> 4) ∧
    b.b2 = d.extractLsb' 0 4 ++ dp.extractLsb' 2 4 ∧
    b.b2 = ((d.setWidth 8 &&& 0x0F#8) <<< 4) ||| (dp.setWidth 8 >>> 2) ∧
    b.b1 = dp.extractLsb' 0 2 ++ u ∧ b.b1 = ((dp.setWidth 8 &&& 0x03#8) <<< 6) ||| u.setWidth 8 ∧
    b.b0 = 0x00#8

/-- 40_encode R73: ENCODE can end in one error only, exactly under `FAULT` with an operand out of range. -/
def Obligations.EncodeFailsExactlyOnInvalidTuple : Prop :=
  ∀ t : RoutingTuple,
    ((∃ e, encodeResult .fault t = .error e) ↔ ¬ t.Valid) ∧
    (∀ e, encodeResult .fault t = .error e → ∃ oor, e = .encodeRange oor ∧ oor ≠ 0#5) ∧
    (∃ b, encodeResult .mask t = .ok b)

/-- 40_encode R72: ENCODE writes no state and has no effect on the decoder datapath; it drives its own pins only. -/
def Obligations.EncodeChangesOnlyTheEncoder : Prop :=
  ∀ (p so d t u : Operand) (s s' : State), exec (.encode p so d t u) s = .next s' →
    s'.encIn = ⟨p, so, d, t, u⟩ ∧ s'.decIn = s.decIn ∧ s'.decOut = s.decOut ∧ s'.pending = s.pending

/-- 30_encoding R57, 40_encode R75: what ENCODE produces is an instance of its row: reserved is zero. -/
def Obligations.ProducedHeaderHasReservedZero : Prop :=
  ∀ (policy : OorPolicy) (t : RoutingTuple) (b : WireHeader), encodeResult policy t = .ok b →
    b.b0 = 0x00#8 ∧ fromWire b &&& 0x000000FF#32 = 0x00000000#32

/-- 30_encoding R61: ENCODE maps the valid tuples one-to-one onto the words whose low byte is zero. -/
def Obligations.EncodeImageIsReservedZeroWords : Prop :=
  ∀ w : Word, w.extractLsb' 0 8 = 0#8 ↔ ∃! t : RoutingTuple, t.Valid ∧ encodeResult .fault t = .ok (toWire w)

/-- 40_encode R74, 42_laws R100: the two literals of the byte-order property. -/
def Obligations.ByteOrderLiterals : Prop :=
  encodeResult .fault ⟨1#8, 5#8, 3#8, 10#8, 63#8⟩ = .ok ⟨0x00#8, 0xBF#8, 0x32#8, 0x4A#8⟩ ∧
  encodeResult .fault ⟨1#8, 5#8, 10#8, 63#8, 0#8⟩ = .ok ⟨0x00#8, 0xC0#8, 0xAF#8, 0x4A#8⟩

/-- 42_laws R101: one operand changes the bits of its own field only; each output depends only on the bytes that hold it. -/
def Obligations.FieldIndependence : Prop :=
  (∀ (t : RoutingTuple) (v : Operand),
    let w := pack (fieldsOf t)
    let wp := pack (fieldsOf { t with priority := v })
    let ws := pack (fieldsOf { t with source := v })
    let wd := pack (fieldsOf { t with destination := v })
    let wt := pack (fieldsOf { t with destPort := v })
    let wu := pack (fieldsOf { t with sourcePort := v })
    (wp ^^^ w) &&& ~~~0xC0000000#32 = 0#32 ∧ (ws ^^^ w) &&& ~~~0x3E000000#32 = 0#32 ∧
    (wd ^^^ w) &&& ~~~0x01F00000#32 = 0#32 ∧ (wt ^^^ w) &&& ~~~0x000FC000#32 = 0#32 ∧
    (wu ^^^ w) &&& ~~~0x00003F00#32 = 0#32 ∧
    toWire wp = { toWire w with b3 := (toWire wp).b3 } ∧ toWire ws = { toWire w with b3 := (toWire ws).b3 } ∧
    toWire wd = { toWire w with b3 := (toWire wd).b3, b2 := (toWire wd).b2 } ∧
    toWire wt = { toWire w with b2 := (toWire wt).b2, b1 := (toWire wt).b1 } ∧
    toWire wu = { toWire w with b1 := (toWire wu).b1 }) ∧
  (∀ b c : WireHeader,
    let h := unpack (fromWire b)
    let k := unpack (fromWire c)
    (b.b3 = c.b3 → h.priority = k.priority ∧ h.source = k.source) ∧
    (b.b3 = c.b3 → b.b2 = c.b2 → h.destination = k.destination) ∧
    (b.b2 = c.b2 → b.b1 = c.b1 → h.destPort = k.destPort) ∧
    (b.b1 = c.b1 → h.sourcePort = k.sourcePort) ∧ (b.b0 = c.b0 → h.reserved = k.reserved))

/-! ## DECODE -/

/-- 41_decode R81: DECODE of a well-formed header. -/
def Obligations.DecodeOfFourBytes : Prop :=
  ∀ (b0 b1 b2 b3 : Byte) (s : State),
    let w : Word := b3 ++ b2 ++ b1 ++ b0
    exec (.decode b0 b1 b2 b3 4#3) s = .next { s with
      decIn  := ⟨⟨b0, b1, b2, b3⟩, 4#3⟩
      decOut := { header := { priority := w.extractLsb' 30 2, source := w.extractLsb' 25 5, destination := w.extractLsb' 20 5,
                              destPort := w.extractLsb' 14 6, sourcePort := w.extractLsb' 8 6,
                              reserved := w.extractLsb' 0 8 }, err := 0#1 } }

/-- 41_decode R87: the per-field output equations, directly from the wire bytes. -/
def Obligations.DecodePerFieldEquations : Prop :=
  ∀ (r : ReceivedHeader) (h : Header), decodeResult r = .ok h →
    h = { priority    := r.wire.b3.extractLsb' 6 2
          source      := r.wire.b3.extractLsb' 1 5
          destination := r.wire.b3.extractLsb' 0 1 ++ r.wire.b2.extractLsb' 4 4
          destPort    := r.wire.b2.extractLsb' 0 4 ++ r.wire.b1.extractLsb' 6 2
          sourcePort  := r.wire.b1.extractLsb' 0 6
          reserved    := r.wire.b0 }

/-- 41_decode R82, R83, R84: any other length ends in DecodeLengthError with the empty header, whatever the bytes hold. -/
def Obligations.DecodeOfWrongLengthEndsInError : Prop :=
  ∀ (b0 b1 b2 b3 : Byte) (n : Len) (s : State), n ≠ 4#3 →
    decodeResult ⟨⟨b0, b1, b2, b3⟩, n⟩ = .error (.decodeLength n) ∧
    exec (.decode b0 b1 b2 b3 n) s = .next { s with
      decIn  := ⟨⟨b0, b1, b2, b3⟩, n⟩
      decOut := { header := { priority := 0#2, source := 0#5, destination := 0#5, destPort := 0#6, sourcePort := 0#6,
                              reserved := 0x00#8 }, err := 1#1 } } ∧
    ∀ c0 c1 c2 c3 : Byte, (s.runDecoder ⟨⟨c0, c1, c2, c3⟩, n⟩).decOut = (s.runDecoder ⟨⟨b0, b1, b2, b3⟩, n⟩).decOut

/-- 42_laws R104: DECODE fails exactly on the length, and what it delivers never makes ENCODE fail. -/
def Obligations.DecodeFailsExactlyOnLength : Prop :=
  ∀ r : ReceivedHeader,
    ((∃ e, decodeResult r = .error e) ↔ r.len ≠ 4#3) ∧
    (∀ e, decodeResult r = .error e → e = .decodeLength r.len) ∧
    (∀ h policy, decodeResult r = .ok h → (tupleOf h).Valid ∧ ∃ b, encodeResult policy (tupleOf h) = .ok b)

/-- 41_decode R88: DECODE writes no state and has no effect on the encoder datapath; it drives its own pins only. -/
def Obligations.DecodeChangesOnlyTheDecoder : Prop :=
  ∀ (b0 b1 b2 b3 : Byte) (n : Len) (s s' : State), exec (.decode b0 b1 b2 b3 n) s = .next s' →
    s'.decIn = ⟨⟨b0, b1, b2, b3⟩, n⟩ ∧ s'.encIn = s.encIn ∧ s'.encOut = s.encOut ∧ s'.pending = s.pending

/-- 30_encoding R58, 41_decode R86: every reserved byte and every other content is accepted and delivered. -/
def Obligations.DecodeAcceptsEveryHeader : Prop :=
  ∀ h : Header, ∃ b0 b1 b2 b3 : Byte, ∀ s : State,
    exec (.decode b0 b1 b2 b3 4#3) s = .next { s with decIn := ⟨⟨b0, b1, b2, b3⟩, 4#3⟩, decOut := ⟨h, 0#1⟩ } ∧ b0 = h.reserved

/-! ## The laws of the two operations together -/

/-- 42_laws R96: encode then decode gives the tuple back, with reserved zero, under either policy. -/
def Obligations.EncodeThenDecodeIsIdentity : Prop :=
  ∀ (p so d t u : Operand) (s : State), RoutingTuple.Valid ⟨p, so, d, t, u⟩ →
    (∃ s1 s2 : State, exec (.encode p so d t u) s = .next s1 ∧ s1.encOut.err = 0#1 ∧
      exec (.decode s1.encOut.wire.b0 s1.encOut.wire.b1 s1.encOut.wire.b2 s1.encOut.wire.b3 4#3) s1 = .next s2 ∧
      s2.decOut.err = 0#1 ∧ tupleOf s2.decOut.header = ⟨p, so, d, t, u⟩ ∧ s2.decOut.header.reserved = 0x00#8) ∧
    ∀ policy, ∃ b h, encodeResult policy ⟨p, so, d, t, u⟩ = .ok b ∧ decodeResult ⟨b, 4#3⟩ = .ok h ∧
      tupleOf h = ⟨p, so, d, t, u⟩ ∧ h.reserved = 0x00#8

/-- 42_laws R97: decode then encode gives the bytes back but for the reserved byte. -/
def Obligations.DecodeThenEncodeLosesOnlyReserved : Prop :=
  ∀ (b : WireHeader) (policy : OorPolicy), ∃ h : Header, decodeResult ⟨b, 4#3⟩ = .ok h ∧
    encodeResult policy (tupleOf h) = .ok ⟨0x00#8, b.b1, b.b2, b.b3⟩ ∧
    (encodeResult policy (tupleOf h) = .ok b ↔ b.b0 = 0x00#8)

/-- 42_laws R98: ENCODE is injective on valid tuples; DECODE of length 4 is a bijection onto the 6-tuples. -/
def Obligations.EncodeInjectiveDecodeBijective : Prop :=
  (∀ (t t' : RoutingTuple) (b : WireHeader), t.Valid → t'.Valid → encodeResult .fault t = .ok b →
    encodeResult .fault t' = .ok b → t = t') ∧
  (∀ b b' : WireHeader, decodeResult ⟨b, 4#3⟩ = decodeResult ⟨b', 4#3⟩ → b = b') ∧
  (∀ h : Header, ∃ b : WireHeader, decodeResult ⟨b, 4#3⟩ = .ok h)

/-- 42_laws R99: applying encode-then-decode a second time changes nothing more. -/
def Obligations.EncodeThenDecodeIsStable : Prop :=
  ∀ (b : WireHeader) (h : Header), decodeResult ⟨b, 4#3⟩ = .ok h →
    ∃ b', encodeResult .fault (tupleOf h) = .ok b' ∧ decodeResult ⟨b', 4#3⟩ = .ok { h with reserved := 0x00#8 } ∧
      encodeResult .fault (tupleOf { h with reserved := 0x00#8 }) = .ok b'

/-- 42_laws R103: when ENCODE ends in EncodeRangeError under `FAULT`, what its vector says, and what the round trip gives under `MASK`, where tuples
that differ by a multiple of a field's range encode alike. -/
def Obligations.PoliciesOnInvalidTuples : Prop :=
  (∀ t v : RoutingTuple, v.priority.toNat % 4 = t.priority.toNat % 4 → v.source.toNat % 32 = t.source.toNat % 32 →
    v.destination.toNat % 32 = t.destination.toNat % 32 → v.destPort.toNat % 64 = t.destPort.toNat % 64 →
    v.sourcePort.toNat % 64 = t.sourcePort.toNat % 64 → encodeResult .mask v = encodeResult .mask t) ∧
  ∀ t : RoutingTuple,
    ((∃ oor, encodeResult .fault t = .error (.encodeRange oor)) ↔ ¬ t.Valid) ∧
    ((∃ b, encodeResult .fault t = .ok b) ↔ t.Valid) ∧
    (∀ oor, encodeResult .fault t = .error (.encodeRange oor) →
      (oor.getLsbD 0 = true ↔ 4 ≤ t.priority.toNat) ∧ (oor.getLsbD 1 = true ↔ 32 ≤ t.source.toNat) ∧
      (oor.getLsbD 2 = true ↔ 32 ≤ t.destination.toNat) ∧ (oor.getLsbD 3 = true ↔ 64 ≤ t.destPort.toNat) ∧
      (oor.getLsbD 4 = true ↔ 64 ≤ t.sourcePort.toNat)) ∧
    ∃ b h, encodeResult .mask t = .ok b ∧ decodeResult ⟨b, 4#3⟩ = .ok h ∧
      h.priority.toNat = t.priority.toNat % 4 ∧ h.source.toNat = t.source.toNat % 32 ∧
      h.destination.toNat = t.destination.toNat % 32 ∧ h.destPort.toNat = t.destPort.toNat % 64 ∧
      h.sourcePort.toNat = t.sourcePort.toNat % 64 ∧ h.reserved = 0x00#8 ∧ (tupleOf h = t ↔ t.Valid)

/-- 10_state R19: the pin-level view and the function-level view are the same datapaths. -/
def Obligations.PinViewEqualsFunctionView : Prop :=
  (∀ t : RoutingTuple, encoderGates t =
    match encodeResult .fault t with
    | .ok b => { wire := b, err := 0#1, oor := 0#5 }
    | .error e => { wire := ⟨0#8, 0#8, 0#8, 0#8⟩, err := 1#1, oor := match e with
        | .encodeRange oor => oor
        | .decodeLength _ => 0#5 }) ∧
  (∀ r : ReceivedHeader, decoderGates r =
    match decodeResult r with
    | .ok h => { header := h, err := 0#1 }
    | .error _ => { header := Config.emptyHeader, err := 1#1 })

/-- 42_laws R102: from every state and for every operand, an operation answers a next state, and the result the host takes
is the function of the operands alone: a result or one of the two named errors. -/
def Obligations.OperationsTotalAndDeterministic : Prop :=
  ∀ (i : Instr) (s : State), ∃ s' : State, exec i s = .next s' ∧ takeResult i.datapath s' = resultOf i

/-- 20_memory R44 (a), 60_exceptions R113: what an operation drives does not depend on the state it finds, an error included. -/
def Obligations.OutputsIndependentOfHistory : Prop :=
  ∀ (i : Instr) (s1 s2 s1' s2' : State), exec i s1 = .next s1' → exec i s2 = .next s2' →
    (i.datapath = .encoder → s1'.encIn = s2'.encIn ∧ s1'.encOut = s2'.encOut) ∧
    (i.datapath = .decoder → s1'.decIn = s2'.decIn ∧ s1'.decOut = s2'.decOut)

/-- 20_memory R44 (b), 60_exceptions R111: an ENCODE and a DECODE in either order leave the same pins, each with its own error. -/
def Obligations.EncodeAndDecodeCommute : Prop :=
  ∀ (p so d t u : Operand) (b0 b1 b2 b3 : Byte) (n : Len) (s : State),
    ∃ e c both : State, exec (.encode p so d t u) s = .next e ∧ exec (.decode b0 b1 b2 b3 n) e = .next both ∧
      exec (.decode b0 b1 b2 b3 n) s = .next c ∧ exec (.encode p so d t u) c = .next both ∧
      (both.encOut.err = 1#1 ↔ ¬ RoutingTuple.Valid ⟨p, so, d, t, u⟩) ∧ (both.decOut.err = 1#1 ↔ n ≠ 4#3)

/-- 20_memory R41: repeating an operation with the same operands changes nothing. -/
def Obligations.OperationsAreIdempotent : Prop :=
  ∀ (i : Instr) (s s' : State), exec i s = .next s' → exec i s' = .next s'

/-- 70_reset_and_hazards R140: a run's results are those of its operations, one by one. -/
def Obligations.RunIsConjunctionOfOperations : Prop :=
  ∀ (ops : List Instr) (s : State), hostRun s ops = ops.map resultOf

/-- 70_reset_and_hazards R137: the substitutes of both errors equal a genuine result bit for bit, so only the error pin tells
them apart. -/
def Obligations.SubstitutesEqualTheAllZeroHeader : Prop :=
  ∀ (t : RoutingTuple) (r : ReceivedHeader) (s : State), ¬ t.Valid → r.len ≠ 4#3 →
    (s.runEncoder .fault t).encOut.wire = (s.runEncoder .fault ⟨0#8, 0#8, 0#8, 0#8, 0#8⟩).encOut.wire ∧
    (s.runEncoder .fault t).encOut.err = 1#1 ∧ (s.runEncoder .fault ⟨0#8, 0#8, 0#8, 0#8, 0#8⟩).encOut.err = 0#1 ∧
    (s.runDecoder r).decOut.header = (s.runDecoder ⟨⟨0#8, 0#8, 0#8, 0#8⟩, 4#3⟩).decOut.header ∧
    (s.runDecoder r).decOut.err = 1#1 ∧ (s.runDecoder ⟨⟨0#8, 0#8, 0#8, 0#8⟩, 4#3⟩).decOut.err = 0#1

/-- 60_exceptions R105: ENCODE's one error has code 1, DECODE's code 2, and a result has code 0. -/
def Obligations.ErrorCodesByOperation : Prop :=
  causeCode none = 0 ∧
  (∀ policy t e, encodeResult policy t = .error e → causeCode (some e) = 1 ∧ policy = .fault ∧ ¬ t.Valid) ∧
  (∀ r e, decodeResult r = .error e → causeCode (some e) = 2 ∧ r.len ≠ 4#3)

/-- 70_reset_and_hazards R136: each wiring an integrator may make: the round-trip check and the re-packer. -/
def Obligations.WiringsRoundTripAndRePack : Prop :=
  (∀ (policy : OorPolicy) (t : RoutingTuple) (s : State), t.Valid →
    tupleOf (s.loopBack policy t).decOut.header = t ∧ (s.loopBack policy t).decOut.header.reserved = 0x00#8 ∧
    (s.loopBack policy t).decOut.err = 0#1) ∧
  (∀ (policy : OorPolicy) (b : WireHeader) (s : State),
    (s.rePack policy ⟨b, 4#3⟩).encOut = { wire := ⟨0x00#8, b.b1, b.b2, b.b3⟩, err := 0#1, oor := 0b00000#5 })

/-! ## The host around the codec -/

/-- 20_memory R38: how many header bytes a frame gives, and what the decoder makes of it. -/
def Obligations.FrameGivesHeaderRegion : Prop :=
  ∀ f : List Byte,
    (headerRegion f).length = min 4 (f.length - 1) ∧
    (∀ (held : WireHeader) (k : Nat), k < (headerRegion f).length →
      (headerRegion f)[k]? = f[k + 1]? ∧ (wireBytes (onPins held (headerRegion f)).wire)[k]? = f[k + 1]?) ∧
    (∀ held : ReceivedHeader, present held (frameRequest f) =
      .ok (.decode (onPins held.wire (headerRegion f)).wire.b0 (onPins held.wire (headerRegion f)).wire.b1
        (onPins held.wire (headerRegion f)).wire.b2 (onPins held.wire (headerRegion f)).wire.b3
        (BitVec.ofNat 3 (min 4 (f.length - 1))))) ∧
    (∀ held : WireHeader, 5 ≤ f.length → ∃ h, decodeResult (onPins held (headerRegion f)) = .ok h) ∧
    (∀ held : WireHeader, f.length < 5 →
      decodeResult (onPins held (headerRegion f)) = .error (.decodeLength (BitVec.ofNat 3 (f.length - 1))))

/-- 30_encoding R64, 20_memory R36: UNFRAME of what FRAME builds. -/
def Obligations.UnframeOfFrame : Prop :=
  ∀ (a : Byte) (b : WireHeader) (payload : List Byte),
    unframe (frame a b payload) = { address := some a, header := wireBytes b, count := 4, payload := payload }

/-- 40_encode R78, 20_memory R37: the address byte of a frame built from ENCODE's operand equals its header's destination. -/
def Obligations.AddressByteIsDestination : Prop :=
  ∀ (policy : OorPolicy) (t : RoutingTuple) (b : WireHeader) (payload : List Byte), t.Valid → encodeResult policy t = .ok b →
    (b.b3.extractLsb' 0 1 ++ b.b2.extractLsb' 4 4 : BitVec 5).setWidth 8 = t.destination ∧
    (frame t.destination b payload).head? = some ((unpack (fromWire b)).destination.setWidth 8) ∧
    t.destination.toNat < 32

/-- 40_encode R77: the reply header, for any configuration in range, and the illustration. -/
def Obligations.ReplyHeaderOfConfiguration : Prop :=
  (fromWire ⟨0x00#8, 0xBF#8, 0x12#8, 0x46#8⟩ = 0x4612BF00#32 ∧
    encodeResult .fault (replyTuple ⟨3#8, 1#8, 10#8⟩) = .ok ⟨0x00#8, 0xBF#8, 0x12#8, 0x46#8⟩) ∧
  ∀ (c : HostConfig) (policy : OorPolicy), c.nodeId.toNat < 32 → c.peerId.toNat < 32 → c.appPort.toNat < 64 →
    replyTuple c = ⟨1#8, c.nodeId, c.peerId, c.appPort, 63#8⟩ ∧ ∃ b, encodeResult policy (replyTuple c) = .ok b ∧
      fromWire b = 0x40003F00#32 ||| (c.nodeId.setWidth 32 <<< 25) ||| (c.peerId.setWidth 32 <<< 20)
        ||| (c.appPort.setWidth 32 <<< 14) ∧
      b.b0 = 0x00#8 ∧ b.b1.extractLsb' 0 6 = 0b111111#6

/-- 70_reset_and_hazards R128: under `FAULT` every reply fails exactly with a configuration out of range. The three values are
those 8 bits hold, which is the model's choice (log 15). -/
def Obligations.ReplyFailsExactlyOutOfRange : Prop :=
  ∀ (c : HostConfig) (text : List Byte),
    (replyFrame .fault c text = none ↔ 32 ≤ c.nodeId.toNat ∨ 32 ≤ c.peerId.toNat ∨ 64 ≤ c.appPort.toNat) ∧
    (replyFrame .mask c text).isSome = true

/-- 41_decode R92, 70_reset_and_hazards R132, R133: a frame shorter than 5 bytes decodes to the empty header and, since its
empty payload is no command, gives no outbound frame; and no reply depends on anything of the query but its payload. That it does
not depend on the address byte, which no step compares with the decoded destination, is the model's choice (log 14); the parser
is an argument (log 13). -/
def Obligations.DispatchOfShortFrame : Prop :=
  ∀ (policy : OorPolicy) (c : HostConfig) (parse : List Byte → Option Int) (text : List Byte) (held : WireHeader),
    (∀ f, f.length < 5 → parse [] ≠ some getData →
      dispatchFrame policy c parse text held f = (Config.emptyHeader, none)) ∧
    (∀ f g, f.drop 5 = g.drop 5 →
      (dispatchFrame policy c parse text held f).2 = (dispatchFrame policy c parse text held g).2)

/-- 60_exceptions R119: the recommended wrapper agrees with the codec on what can be presented, and reports what cannot
as EncodeRangeError with the operand's bit set, or DecodeLengthError. That the bits of several such arguments are all set at once
is the model's choice (log 13). -/
def Obligations.BoundaryWrapperAgrees : Prop :=
  (∀ (t : RoutingTuple), wrapEncode t.priority.toNat t.source.toNat t.destination.toNat t.destPort.toNat t.sourcePort.toNat =
    encodeResult .fault t) ∧
  (∀ p s d t u : Rat, ¬ (Request.encode p s d t u).Presentable →
    ∃ oor, wrapEncode p s d t u = .error (.encodeRange oor) ∧
      (¬ PresentableOperand p → oor.getLsbD 0 = true) ∧ (¬ PresentableOperand s → oor.getLsbD 1 = true) ∧
      (¬ PresentableOperand d → oor.getLsbD 2 = true) ∧ (¬ PresentableOperand t → oor.getLsbD 3 = true) ∧
      (¬ PresentableOperand u → oor.getLsbD 4 = true)) ∧
  (∀ (bytes : List Byte) (held : WireHeader), bytes.length ≤ 7 →
    wrapDecode bytes = decodeResult (onPins held bytes)) ∧
  (∀ bytes : List Byte, 7 < bytes.length → ∃ n, wrapDecode bytes = .error (.decodeLength n))
end

