-- ==== Sys2Proof/Laws/Header.lean ====
section
/-!
SUPPORT. The small lemmas of the header word's functions: each unfolds one definition, so that no proof unfolds it again.
-/

namespace Sys2Proof.Machine

/-- `to_wire` as the four slices of 30_encoding R51. -/
theorem toWire_eq (w : Word) :
    toWire w = { b0 := w.extractLsb' 0 8, b1 := w.extractLsb' 8 8, b2 := w.extractLsb' 16 8, b3 := w.extractLsb' 24 8 } := rfl

theorem group_zero (w : Word) : group w 0 = w.extractLsb' 24 8 := rfl
theorem group_one (w : Word) : group w 1 = w.extractLsb' 16 8 := rfl
theorem group_two (w : Word) : group w 2 = w.extractLsb' 8 8 := rfl
theorem group_three (w : Word) : group w 3 = w.extractLsb' 0 8 := rfl

theorem fieldsOf_reserved (t : RoutingTuple) : (fieldsOf t).reserved = 0x00#8 := rfl

/-- An operand that fits its field, as an inequality. -/
theorem outOfRange_iff (w : Nat) (v : Operand) : outOfRange w v = true ↔ 2 ^ w ≤ v.toNat := by
  simp [outOfRange]

theorem lengthOk_iff (len : Len) : lengthOk len = true ↔ len = 4#3 := by
  simp [lengthOk]

end Sys2Proof.Machine
end

