-- ==== Sys2Proof/Laws/State.lean ====
section
/-!
SUPPORT. One lemma per field and update of State.
-/

namespace Sys2Proof.Machine

variable (s : State) (t : RoutingTuple) (r : ReceivedHeader) (b : WireHeader) (h : Header) (e : CodecError)

@[simp] theorem State.presentEncoder_encIn : (s.presentEncoder t).encIn = t := rfl
@[simp] theorem State.presentEncoder_encOut : (s.presentEncoder t).encOut = s.encOut := rfl
@[simp] theorem State.presentEncoder_decIn : (s.presentEncoder t).decIn = s.decIn := rfl
@[simp] theorem State.presentEncoder_decOut : (s.presentEncoder t).decOut = s.decOut := rfl
@[simp] theorem State.presentEncoder_pending : (s.presentEncoder t).pending = s.pending := rfl

@[simp] theorem State.presentDecoder_encIn : (s.presentDecoder r).encIn = s.encIn := rfl
@[simp] theorem State.presentDecoder_encOut : (s.presentDecoder r).encOut = s.encOut := rfl
@[simp] theorem State.presentDecoder_decIn : (s.presentDecoder r).decIn = r := rfl
@[simp] theorem State.presentDecoder_decOut : (s.presentDecoder r).decOut = s.decOut := rfl
@[simp] theorem State.presentDecoder_pending : (s.presentDecoder r).pending = s.pending := rfl

@[simp] theorem State.deliverWire_encIn : (s.deliverWire b).encIn = s.encIn := rfl
@[simp] theorem State.deliverWire_wire : (s.deliverWire b).encOut.wire = b := rfl
@[simp] theorem State.deliverWire_err : (s.deliverWire b).encOut.err = 0#1 := rfl
@[simp] theorem State.deliverWire_oor : (s.deliverWire b).encOut.oor = 0#5 := rfl
@[simp] theorem State.deliverWire_decIn : (s.deliverWire b).decIn = s.decIn := rfl
@[simp] theorem State.deliverWire_decOut : (s.deliverWire b).decOut = s.decOut := rfl
@[simp] theorem State.deliverWire_pending : (s.deliverWire b).pending = s.pending := rfl

@[simp] theorem State.deliverHeader_encIn : (s.deliverHeader h).encIn = s.encIn := rfl
@[simp] theorem State.deliverHeader_encOut : (s.deliverHeader h).encOut = s.encOut := rfl
@[simp] theorem State.deliverHeader_decIn : (s.deliverHeader h).decIn = s.decIn := rfl
@[simp] theorem State.deliverHeader_header : (s.deliverHeader h).decOut.header = h := rfl
@[simp] theorem State.deliverHeader_err : (s.deliverHeader h).decOut.err = 0#1 := rfl
@[simp] theorem State.deliverHeader_pending : (s.deliverHeader h).pending = s.pending := rfl

@[simp] theorem State.raiseError_encIn : (s.raiseError e).encIn = s.encIn := by cases e <;> rfl
@[simp] theorem State.raiseError_decIn : (s.raiseError e).decIn = s.decIn := by cases e <;> rfl
@[simp] theorem State.raiseError_pending : (s.raiseError e).pending = s.pending := by cases e <;> rfl

end Sys2Proof.Machine
end

