-- ==== Sys2Proof/Laws/Ops.lean ====
section
/-!
SUPPORT. What each shared operation can do, said once: the provers cite these instead of unfolding the operation.
-/

namespace Sys2Proof.Machine

/-- An error changes the outputs of its own datapath and nothing else (60_exceptions R112). -/
theorem raiseError_spec (s : State) (e : CodecError) :
    (∃ oor, e = .encodeRange oor ∧ s.raiseError e = { s with encOut := ⟨⟨0#8, 0#8, 0#8, 0#8⟩, 1#1, oor⟩ }) ∨
    (∃ len, e = .decodeLength len ∧ s.raiseError e = { s with decOut := ⟨Config.emptyHeader, 1#1⟩ }) := by
  cases e with
  | encodeRange oor => exact .inl ⟨oor, rfl, rfl⟩
  | decodeLength len => exact .inr ⟨len, rfl, rfl⟩

/-- The two ways ENCODE can end, with the condition of each. -/
theorem encodeResult_cases (policy : OorPolicy) (t : RoutingTuple) :
    (encodeResult policy t = .error (.encodeRange (oorVector t)) ∧ policy = .fault ∧ oorVector t ≠ 0#5) ∨
    (encodeResult policy t = .ok (toWire (pack (fieldsOf t))) ∧ (policy = .mask ∨ oorVector t = 0#5)) := by
  unfold encodeResult
  split
  · exact .inl ⟨rfl, ‹_›⟩
  · rename_i h
    refine .inr ⟨rfl, ?_⟩
    cases policy with
    | fault => exact .inr (by simpa using h)
    | mask => exact .inl rfl

/-- The two ways DECODE can end, with the condition of each. -/
theorem decodeResult_cases (r : ReceivedHeader) :
    (decodeResult r = .ok (unpack (fromWire r.wire)) ∧ r.len = 4#3) ∨
    (decodeResult r = .error (.decodeLength r.len) ∧ r.len ≠ 4#3) := by
  unfold decodeResult lengthOk
  by_cases h : r.len = 4#3
  · exact .inl ⟨by simp [h], h⟩
  · exact .inr ⟨by simp [h], h⟩

/-- Everything one evaluation of the encoder does to the state. -/
theorem runEncoder_spec (s : State) (policy : OorPolicy) (t : RoutingTuple) :
    s.runEncoder policy t = { s with
      encIn := t
      encOut := match encodeResult policy t with
        | .ok b => ⟨b, 0#1, 0#5⟩
        | .error _ => ⟨⟨0#8, 0#8, 0#8, 0#8⟩, 1#1, oorVector t⟩ } := by
  unfold State.runEncoder
  rcases encodeResult_cases policy t with ⟨h, -⟩ | ⟨h, -⟩ <;> rw [h] <;> rfl

/-- Everything one evaluation of the decoder does to the state. -/
theorem runDecoder_spec (s : State) (r : ReceivedHeader) :
    s.runDecoder r = { s with
      decIn := r
      decOut := match decodeResult r with
        | .ok h => ⟨h, 0#1⟩
        | .error _ => ⟨Config.emptyHeader, 1#1⟩ } := by
  unfold State.runDecoder
  rcases decodeResult_cases r with ⟨h, -⟩ | ⟨h, -⟩ <;> rw [h] <;> rfl

/-- An operand of the encoder can fail to be presented in one way only. -/
theorem presentOperand_cases (which : OperandName) (q : Rat) :
    (PresentableOperand q ∧ presentOperand which q = .ok (BitVec.ofInt 8 q.num)) ∨
    (¬ PresentableOperand q ∧ presentOperand which q = .error (.operand which)) := by
  unfold presentOperand
  by_cases h : PresentableOperand q
  · exact .inl ⟨h, if_pos h⟩
  · exact .inr ⟨h, if_neg h⟩

/-- What an operation did, if it answers a next state. -/
theorem exec_cases {i : Instr} {s s' : State} (h : exec i s = .next s') :
    (∃ p so d t u, i = .encode p so d t u ∧ s' = s.runEncoder Config.hardware.oorPolicy ⟨p, so, d, t, u⟩) ∨
    (∃ b0 b1 b2 b3 n, i = .decode b0 b1 b2 b3 n ∧ s' = s.runDecoder ⟨⟨b0, b1, b2, b3⟩, n⟩) := by
  cases i with
  | encode p so d t u =>
    refine .inl ⟨p, so, d, t, u, rfl, ?_⟩
    simpa [exec, execEncode] using h.symm
  | decode b0 b1 b2 b3 n =>
    refine .inr ⟨b0, b1, b2, b3, n, rfl, ?_⟩
    simpa [exec, execDecode] using h.symm

/-- What a step did, if it answers a next state: nothing, or the operation at the head of the host's list. -/
theorem step_cases {s s' : State} (h : step s = .next s') :
    (s.pending = [] ∧ s' = s) ∨
    (∃ r rest i, s.pending = r :: rest ∧ present s.decIn r = .ok i ∧ exec i { s with pending := rest } = .next s') := by
  unfold step at h
  split at h
  · exact .inl ⟨‹_›, by simpa using h.symm⟩
  · rename_i r rest hp
    split at h
    · exact .inr ⟨r, rest, _, hp, ‹_›, h⟩
    · cases h

end Sys2Proof.Machine
end

