-- ==== Sys2Proof/Laws/PerInstr.lean ====
section
/-!
SUPPORT. Statements made per operation. `TableRow`: the header word of a well-formed operation is an instance of its row of
opcode_table.json (30_encoding R57).
-/

namespace Sys2Proof.Laws

def TableRow.Statement (i : Instr) : Prop :=
  i.WellFormed → encodeWord i &&& rowMask i.datapath = rowMatch i.datapath

theorem TableRow.encode (p s d t u : Operand) : TableRow.Statement (.encode p s d t u) := by
  intro _
  simp only [encodeWord, Instr.datapath, rowMask, rowMatch, Machine.pack, Config.encRsv]
  ext i hi
  simp only [BitVec.getElem_and, BitVec.getElem_or, BitVec.getElem_shiftLeft, BitVec.getElem_setWidth]
  interval_cases i <;> simp

theorem TableRow.decode (b0 b1 b2 b3 : Byte) (len : Len) : TableRow.Statement (.decode b0 b1 b2 b3 len) := by
  intro _
  simp [Instr.datapath, rowMask, rowMatch]

end Sys2Proof.Laws
end

