-- ==== Sys2Proof/Tests/Slice0.lean ====
section
/-!
SUPPORT. Tests with expected values from 95_test_vectors.md and the worked examples of 40_encode and 41_decode, ill-formed terms
for each check, and for each statement with hypotheses a witness that meets them together.
-/

namespace Sys2Proof.Tests

open Sys2Proof Sys2Proof.Machine

/-- A state no run reaches: its outputs are not those of its inputs. -/
def junk : State :=
  { encIn := ⟨1#8, 2#8, 3#8, 4#8, 5#8⟩, encOut := ⟨⟨9#8, 9#8, 9#8, 9#8⟩, 1#1, 0b00110#5⟩
    decIn := ⟨⟨1#8, 2#8, 3#8, 0x4A#8⟩, 5#3⟩, decOut := ⟨⟨3#2, 3#5, 3#5, 3#6, 3#6, 3#8⟩, 0#1⟩
    pending := [.decode [0x00#8, 0xBF#8, 0x32#8]] }

/-- Reset with one request waiting. -/
def waiting (r : Request) : State := { State.reset with pending := [r] }

/-! ## Well-formedness: one ill-formed term for each check -/

theorem smoke_priority_four : ¬ Instr.WellFormed (.encode 4#8 0#8 0#8 0#8 0#8) := by decide
theorem smoke_source_thirty_two : ¬ Instr.WellFormed (.encode 0#8 32#8 0#8 0#8 0#8) := by decide
theorem smoke_destination_thirty_two : ¬ Instr.WellFormed (.encode 0#8 0#8 32#8 0#8 0#8) := by decide
theorem smoke_destPort_sixty_four : ¬ Instr.WellFormed (.encode 0#8 0#8 0#8 64#8 0#8) := by decide
theorem smoke_sourcePort_sixty_four : ¬ Instr.WellFormed (.encode 0#8 0#8 0#8 0#8 64#8) := by decide
theorem smoke_len_three : ¬ Instr.WellFormed (.decode 0#8 0xBF#8 0x32#8 0x4A#8 3#3) := by decide
theorem smoke_len_five : ¬ Instr.WellFormed (.decode 0#8 0xBF#8 0x32#8 0x4A#8 5#3) := by decide
theorem smoke_wellFormed_largest : Instr.WellFormed (.encode 3#8 31#8 31#8 63#8 63#8) ∧
    Instr.WellFormed (.decode 0xFF#8 0xFF#8 0xFF#8 0xFF#8 4#3) := by decide
theorem smoke_negative : ¬ PresentableOperand (-1) := by decide
theorem smoke_fraction : ¬ PresentableOperand (mkRat 5 2) := by decide
theorem smoke_two_hundred_fifty_six : ¬ PresentableOperand 256 ∧ PresentableOperand 255 := by decide
theorem smoke_sequence_of_eight : ¬ Request.Presentable (.decode (List.replicate 8 0#8)) ∧
    Request.Presentable (.decode (List.replicate 7 0#8)) := by decide

/-! ## Header words, written out bit by bit from 30_encoding R45 -/

/-- 40_encode R76: 01 00101 00011 001010 111111 00000000. -/
theorem test_word_encode : decodeTableWord 32 0b01001010001100101011111100000000 = some (.encode 1#8 5#8 3#8 10#8 63#8) := by
  decide

/-- 41_decode R91: 11 01111 01010 110110 111110 11101111. -/
theorem test_word_decode :
    decodeTableWord 32 0b11011110101011011011111011101111 = some (.decode 0xEF#8 0xBE#8 0xAD#8 0xDE#8 4#3) := by decide

/-- The DECODE row reads every word, one with a zero reserved byte too (30_encoding R57). -/
theorem test_row_decode_reserved_zero :
    decodeRow .decoder 0x4A32BF00#32 = .ok (.decode 0x00#8 0xBF#8 0x32#8 0x4A#8 4#3) := by decide

/-- The ENCODE row rejects a word with a reserved bit set, by name. -/
theorem test_row_encode_rejects : decodeRow .encoder 0x46113F80#32 = .error (.reservedNotZero 0x80#8) := by decide

/-- A header has 4 bytes (30_encoding R55). -/
theorem test_bytes_three : decodeBytes [0x00#8, 0xBF#8, 0x32#8] = .error (.notFourBytes 3) := by decide

theorem test_wide_word_refused : decodeTableWord 40 0 = none := by decide

/-- 40_encode R76 and 41_decode R91: the header words of the two worked examples. -/
theorem test_encodeWord : encodeWord (.encode 1#8 5#8 3#8 10#8 63#8) = 0x4A32BF00#32 ∧
    encodeWord (.decode 0xEF#8 0xBE#8 0xAD#8 0xDE#8 4#3) = 0xDEADBEEF#32 := by decide

/-! ## The two operations -/

/-- Row E29: all five operands distinct and near maximal. -/
theorem test_encode_E29 : (nextOf (exec (.encode 3#8 30#8 29#8 62#8 61#8) junk)).map State.encOut =
    some ⟨⟨0x00#8, 0xBD#8, 0xDF#8, 0xFD#8⟩, 0#1, 0b00000#5⟩ := by decide

/-- Row X7: destPort 100 under `FAULT`. -/
theorem test_encode_X7 : (nextOf (exec (.encode 1#8 5#8 3#8 100#8 63#8) junk)).map State.encOut =
    some ⟨⟨0x00#8, 0x00#8, 0x00#8, 0x00#8⟩, 1#1, 0b01000#5⟩ := by decide

/-- Rows X7 and X9 under `MASK`. -/
theorem test_mask_X7_X9 :
    (junk.runEncoder .mask ⟨1#8, 5#8, 3#8, 100#8, 63#8⟩).encOut = ⟨⟨0x00#8, 0x3F#8, 0x39#8, 0x4A#8⟩, 0#1, 0#5⟩ ∧
    (junk.runEncoder .mask ⟨5#8, 37#8, 35#8, 74#8, 127#8⟩).encOut = ⟨⟨0x00#8, 0xBF#8, 0x32#8, 0x4A#8⟩, 0#1, 0#5⟩ := by decide

/-- Row T15: `A5 5A C3 3C`. -/
theorem test_decode_T15 : (nextOf (exec (.decode 0xA5#8 0x5A#8 0xC3#8 0x3C#8 4#3) junk)).map State.decOut =
    some ⟨⟨0#2, 30#5, 12#5, 13#6, 26#6, 0xA5#8⟩, 0#1⟩ := by decide

/-- Row L3b: the fourth input happens to hold a byte; it is ignored. -/
theorem test_decode_L3b : (nextOf (exec (.decode 0x00#8 0xBF#8 0x32#8 0x4A#8 3#3) junk)).map State.decOut =
    some ⟨⟨0#2, 0#5, 0#5, 0#6, 0#6, 0x00#8⟩, 1#1⟩ := by decide

/-! ## The step and the host's requests -/

/-- Program P1, line 1, as a request. -/
theorem test_step_encode : (nextOf (step (waiting (.encode 1 5 3 10 63)))).map State.encOut =
    some ⟨⟨0x00#8, 0xBF#8, 0x32#8, 0x4A#8⟩, 0#1, 0b00000#5⟩ := by decide

/-- Program P3, line 2: a short frame's header region; the fourth pin keeps what it held (log 7). -/
theorem test_step_short : (nextOf (step junk)).map (fun s => (s.decIn, s.decOut.err, s.pending)) =
    some (⟨⟨0x00#8, 0xBF#8, 0x32#8, 0x4A#8⟩, 3#3⟩, 1#1, []) := by decide

/-- 60_exceptions R119: refused at the boundary, by name. -/
theorem test_step_refuses_fraction :
    step (waiting (.encode 1 (mkRat 5 2) 3 10 63)) = .refused (.notPresentable (.operand .source)) := by rfl

theorem test_step_refuses_long :
    step (waiting (.decode (List.replicate 8 0#8))) = .refused (.notPresentable (.sequenceTooLong 8)) := by rfl

theorem test_reset_step_is_idle : step State.reset = .next State.reset := by rfl

/-- A row's word is the first operation after reset (row E25). -/
theorem test_first_operation : (nextOf (step (State.reset.withFetchWord 32 0x94329100))).map State.encOut =
    some ⟨⟨0x00#8, 0x91#8, 0x32#8, 0x94#8⟩, 0#1, 0b00000#5⟩ := by decide

/-! ## The host around the codec -/

/-- Program P2: the query frame taken apart, and the reply frame with `P` as two bytes. -/
theorem test_P2 :
    unframe [0x03#8, 0x00#8, 0x91#8, 0x32#8, 0x82#8, 0x35#8] =
      ⟨some 0x03#8, [0x00#8, 0x91#8, 0x32#8, 0x82#8], 4, [0x35#8]⟩ ∧
    dispatchFrame .fault ⟨3#8, 1#8, 10#8⟩ (fun p => if p = [0x35#8] then some 5 else none) [0x41#8, 0x42#8]
      ⟨0#8, 0#8, 0#8, 0#8⟩ [0x03#8, 0x00#8, 0x91#8, 0x32#8, 0x82#8, 0x35#8] =
      (⟨2#2, 1#5, 3#5, 10#6, 17#6, 0x00#8⟩,
       some [0x01#8, 0x00#8, 0xBF#8, 0x12#8, 0x46#8, 0x41#8, 0x42#8]) := by decide

/-- Program P4: an application port out of range, under both policies. -/
theorem test_P4 : replyFrame .fault ⟨3#8, 1#8, 74#8⟩ [] = none ∧
    replyFrame .mask ⟨3#8, 1#8, 74#8⟩ [] = some [0x01#8, 0x00#8, 0xBF#8, 0x12#8, 0x46#8] := by decide

/-- 30_encoding R53 on the tuple of row E21. -/
theorem test_string_method : stringMethod ⟨1#2, 5#5, 3#5, 10#6, 63#6, 0x00#8⟩ = [0x00, 0xBF, 0x32, 0x4A] := by decide

/-- 60_exceptions R119: the wrapper's answers for 256 as destPort and for a sequence of 9 bytes. -/
theorem test_wrapper : wrapEncode 1 5 3 256 63 = .error (.encodeRange 0b01000#5) ∧
    wrapDecode (List.replicate 9 0#8) = .error (.decodeLength 7#3) := by decide

/-- Program P5: a header with reserved bits through the re-packer (70_reset_and_hazards R136). -/
theorem test_P5_rePack : (State.reset.rePack .fault ⟨⟨0x80#8, 0x3F#8, 0x11#8, 0x46#8⟩, 4#3⟩).encOut.wire =
    ⟨0x00#8, 0x3F#8, 0x11#8, 0x46#8⟩ := by decide

/-! ## Witnesses: the hypotheses of the statements can be met -/

theorem witness_EveryStepKeepsOutputsFollowingInputs :
    Driven (waiting (.encode 4 5 3 10 63)) ∧ (nextOf (step (waiting (.encode 4 5 3 10 63)))).isSome = true ∧
    Driven (waiting (.decode [0xFF#8])) ∧ (nextOf (step (waiting (.decode [0xFF#8])))).isSome = true ∧ Driven State.reset := by
  decide

theorem witness_OperationDrivesItsOwnDatapath :
    (∃ s', exec (.encode 255#8 5#8 3#8 10#8 63#8) junk = .next s') ∧
    (∃ s', exec (.decode 1#8 2#8 3#8 4#8 7#3) junk = .next s') := ⟨⟨_, rfl⟩, ⟨_, rfl⟩⟩

theorem witness_WireByteIsSliceOfWord : (3 : Fin 4).val = 3 ∧ 7 < 8 := by decide

theorem witness_RowReadsBackEveryWellFormedWord :
    Instr.WellFormed (.encode 3#8 31#8 31#8 63#8 63#8) ∧ Instr.WellFormed (.decode 0#8 0#8 0#8 0#8 4#3) ∧
    decodeRow .encoder 0xFFFFFF00#32 = .ok (.encode 3#8 31#8 31#8 63#8 63#8) ∧
    decodeRow .decoder 0x00000000#32 = .ok (.decode 0#8 0#8 0#8 0#8 4#3) := by decide

theorem witness_TableWordReadBySpecificRow :
    (0xFFFFFF00#32).extractLsb' 0 8 = 0#8 ∧ (0x00000001#32).extractLsb' 0 8 ≠ 0#8 ∧
    decodeTableWord 32 0x00000000 = some (.encode 0#8 0#8 0#8 0#8 0#8) ∧
    decodeTableWord 32 0x00000001 = some (.decode 1#8 0#8 0#8 0#8 4#3) := by decide

theorem witness_RequestPresentsItsOperation :
    4 ≤ (4#3 : Len).toNat ∧ junk.decIn.wire = ⟨1#8, 2#8, 3#8, 0x4A#8⟩ ∧
    present junk.decIn (requestOf (.decode 1#8 2#8 3#8 0x4A#8 0#3)) = .ok (.decode 1#8 2#8 3#8 0x4A#8 0#3) ∧
    present junk.decIn (requestOf (.decode 5#8 6#8 7#8 8#8 7#3)) = .ok (.decode 5#8 6#8 7#8 8#8 7#3) := by decide

theorem witness_StepRunsTheNextOperation :
    (∃ i, (waiting (.encode 255 0 0 0 0)).pending = [.encode 255 0 0 0 0] ∧
      present (waiting (.encode 255 0 0 0 0)).decIn (.encode 255 0 0 0 0) = .ok i) ∧
    present (waiting (.encode 256 0 0 0 0)).decIn (.encode 256 0 0 0 0) = .error (.operand .priority) ∧
    State.reset.pending = [] := ⟨⟨_, rfl, rfl⟩, rfl, rfl⟩

theorem witness_PlacedTableWordRuns :
    decodeTableWord 32 0xFFFFFFFF = some (.decode 0xFF#8 0xFF#8 0xFF#8 0xFF#8 4#3) ∧
    decodeTableWord 32 0 = some (.encode 0#8 0#8 0#8 0#8 0#8) := by decide

theorem witness_StepRefusesExactlyTheUnpresentable :
    (waiting (.decode (List.replicate 8 0#8))).pending = [.decode (List.replicate 8 0#8)] ∧ 7 < (List.replicate 8 (0#8 : Byte)).length ∧
    ¬ Request.Presentable (.encode 0 0 0 0 (-1)) ∧ Request.Presentable (.decode []) := by decide

theorem witness_EncodeOfValidTuple : RoutingTuple.Valid ⟨3#8, 31#8, 31#8, 63#8, 63#8⟩ ∧ RoutingTuple.Valid ⟨0#8, 0#8, 0#8, 0#8, 0#8⟩ := by
  decide

theorem witness_EncodeOutOfRangeEndsInError :
    4 ≤ (4#8).toNat ∧ 32 ≤ (32#8).toNat ∧ 64 ≤ (64#8).toNat ∧ 4 ≤ (255#8).toNat ∧
    oorVector ⟨4#8, 0#8, 0#8, 0#8, 0#8⟩ = 0b00001#5 ∧ oorVector ⟨0#8, 32#8, 0#8, 0#8, 0#8⟩ = 0b00010#5 ∧
    oorVector ⟨0#8, 0#8, 32#8, 0#8, 0#8⟩ = 0b00100#5 ∧ oorVector ⟨0#8, 0#8, 0#8, 64#8, 0#8⟩ = 0b01000#5 ∧
    oorVector ⟨0#8, 0#8, 0#8, 0#8, 64#8⟩ = 0b10000#5 := by decide

theorem witness_MaskPolicyReducesEveryOperand :
    (1#8).toNat = (5#8).toNat % 2 ^ 2 ∧ (5#8).toNat = (37#8).toNat % 2 ^ 5 ∧ (3#8).toNat = (35#8).toNat % 2 ^ 5 ∧
    (10#8).toNat = (74#8).toNat % 2 ^ 6 ∧ (63#8).toNat = (127#8).toNat % 2 ^ 6 := by decide

/-- Results without error under both policies: the hypothesis of EncodePerByteEquations and ProducedHeaderHasReservedZero. -/
theorem witness_EncodePerByteEquations :
    (∃ b, encodeResult .fault ⟨3#8, 31#8, 31#8, 63#8, 63#8⟩ = .ok b) ∧
    (∃ b, encodeResult .mask ⟨255#8, 255#8, 255#8, 255#8, 255#8⟩ = .ok b) := ⟨⟨_, rfl⟩, ⟨_, rfl⟩⟩

theorem witness_ProducedHeaderHasReservedZero : ∃ b, encodeResult .fault ⟨0#8, 7#8, 7#8, 0#8, 0#8⟩ = .ok b := ⟨_, rfl⟩

theorem witness_EncodeFailsExactlyOnInvalidTuple :
    (∃ e, encodeResult .fault ⟨255#8, 255#8, 255#8, 255#8, 255#8⟩ = .error e) ∧ ¬ RoutingTuple.Valid ⟨4#8, 0#8, 0#8, 0#8, 0#8⟩ :=
  ⟨⟨_, rfl⟩, by decide⟩

theorem witness_EncodeChangesOnlyTheEncoder :
    (∃ s', exec (.encode 1#8 5#8 3#8 10#8 63#8) junk = .next s') ∧ (∃ s', exec (.encode 4#8 0#8 0#8 0#8 0#8) junk = .next s') :=
  ⟨⟨_, rfl⟩, ⟨_, rfl⟩⟩

theorem witness_EncodeImageIsReservedZeroWords :
    (0xFFFFFF00#32).extractLsb' 0 8 = 0#8 ∧ RoutingTuple.Valid ⟨3#8, 31#8, 31#8, 63#8, 63#8⟩ ∧
    encodeResult .fault ⟨3#8, 31#8, 31#8, 63#8, 63#8⟩ = .ok (toWire 0xFFFFFF00#32) := by decide

/-- Two headers that agree in one byte only, for each byte. -/
theorem witness_FieldIndependence :
    (⟨1#8, 2#8, 3#8, 4#8⟩ : WireHeader).b3 = (⟨5#8, 6#8, 7#8, 4#8⟩ : WireHeader).b3 ∧
    (⟨1#8, 2#8, 3#8, 4#8⟩ : WireHeader).b2 = (⟨5#8, 6#8, 3#8, 4#8⟩ : WireHeader).b2 ∧
    (⟨1#8, 2#8, 3#8, 4#8⟩ : WireHeader).b1 = (⟨5#8, 2#8, 3#8, 8#8⟩ : WireHeader).b1 ∧
    (⟨1#8, 2#8, 3#8, 4#8⟩ : WireHeader).b0 = (⟨1#8, 6#8, 7#8, 8#8⟩ : WireHeader).b0 := by decide

theorem witness_DecodePerFieldEquations :
    ∃ h, decodeResult ⟨⟨0xFF#8, 0xFF#8, 0xFF#8, 0xFF#8⟩, 4#3⟩ = .ok h := ⟨_, rfl⟩

theorem witness_DecodeOfWrongLengthEndsInError : (0#3 : Len) ≠ 4#3 ∧ (3#3 : Len) ≠ 4#3 ∧ (5#3 : Len) ≠ 4#3 ∧ (7#3 : Len) ≠ 4#3 := by
  decide

theorem witness_DecodeFailsExactlyOnLength :
    (∃ e, decodeResult ⟨⟨0#8, 0#8, 0#8, 0#8⟩, 3#3⟩ = .error e) ∧ (∃ h, decodeResult ⟨⟨0#8, 0#8, 0#8, 0#8⟩, 4#3⟩ = .ok h) :=
  ⟨⟨_, rfl⟩, ⟨_, rfl⟩⟩

theorem witness_DecodeChangesOnlyTheDecoder :
    (∃ s', exec (.decode 0x00#8 0xBF#8 0x32#8 0x4A#8 4#3) junk = .next s') ∧
    (∃ s', exec (.decode 0x00#8 0xBF#8 0x32#8 0x4A#8 0#3) junk = .next s') := ⟨⟨_, rfl⟩, ⟨_, rfl⟩⟩

theorem witness_EncodeThenDecodeIsIdentity : RoutingTuple.Valid ⟨3#8, 30#8, 29#8, 62#8, 61#8⟩ := by decide

theorem witness_EncodeInjectiveDecodeBijective :
    RoutingTuple.Valid ⟨1#8, 5#8, 3#8, 10#8, 63#8⟩ ∧
    encodeResult .fault ⟨1#8, 5#8, 3#8, 10#8, 63#8⟩ = .ok ⟨0x00#8, 0xBF#8, 0x32#8, 0x4A#8⟩ ∧
    decodeResult ⟨⟨1#8, 2#8, 3#8, 4#8⟩, 4#3⟩ = decodeResult ⟨⟨1#8, 2#8, 3#8, 4#8⟩, 4#3⟩ := by decide

theorem witness_EncodeThenDecodeIsStable :
    decodeResult ⟨⟨0x80#8, 0x3F#8, 0x11#8, 0x46#8⟩, 4#3⟩ = .ok ⟨1#2, 3#5, 1#5, 4#6, 63#6, 0x80#8⟩ := by decide

theorem witness_PoliciesOnInvalidTuples :
    (5#8).toNat % 4 = (1#8).toNat % 4 ∧ (37#8).toNat % 32 = (5#8).toNat % 32 ∧ (35#8).toNat % 32 = (3#8).toNat % 32 ∧
    (74#8).toNat % 64 = (10#8).toNat % 64 ∧ (127#8).toNat % 64 = (63#8).toNat % 64 ∧
    encodeResult .fault ⟨5#8, 37#8, 35#8, 74#8, 127#8⟩ = .error (.encodeRange 0b11111#5) := by decide

/-- Two different states from which each operation answers a next state. -/
theorem witness_OutputsIndependentOfHistory :
    (∃ a b, exec (.encode 4#8 0#8 0#8 0#8 0#8) junk = .next a ∧ exec (.encode 4#8 0#8 0#8 0#8 0#8) State.reset = .next b) ∧
    (∃ a b, exec (.decode 1#8 2#8 3#8 4#8 4#3) junk = .next a ∧ exec (.decode 1#8 2#8 3#8 4#8 4#3) State.reset = .next b) ∧
    junk ≠ State.reset := ⟨⟨_, _, rfl, rfl⟩, ⟨_, _, rfl, rfl⟩, by decide⟩

theorem witness_OperationsAreIdempotent :
    (∃ s', exec (.encode 1#8 5#8 3#8 10#8 63#8) junk = .next s') ∧ (∃ s', exec (.decode 1#8 2#8 3#8 4#8 6#3) junk = .next s') :=
  ⟨⟨_, rfl⟩, ⟨_, rfl⟩⟩

theorem witness_SubstitutesEqualTheAllZeroHeader :
    ¬ RoutingTuple.Valid ⟨4#8, 0#8, 0#8, 0#8, 0#8⟩ ∧ (⟨⟨0x00#8, 0xBF#8, 0x32#8, 0x4A#8⟩, 3#3⟩ : ReceivedHeader).len ≠ 4#3 := by decide

theorem witness_ErrorCodesByOperation :
    (∃ e, encodeResult .fault ⟨0#8, 0#8, 0#8, 0#8, 64#8⟩ = .error e) ∧ (∃ e, decodeResult ⟨⟨0#8, 0#8, 0#8, 0#8⟩, 5#3⟩ = .error e) :=
  ⟨⟨_, rfl⟩, ⟨_, rfl⟩⟩

theorem witness_WiringsRoundTripAndRePack : RoutingTuple.Valid ⟨2#8, 21#8, 10#8, 42#8, 21#8⟩ := by decide

/-- Frames of 4 and of 5 bytes, on either side of the length check. -/
theorem witness_FrameGivesHeaderRegion :
    ([3#8, 0#8, 0xBF#8, 0x32#8] : List Byte).length < 5 ∧ 5 ≤ ([3#8, 0#8, 0xBF#8, 0x32#8, 0x4A#8] : List Byte).length ∧
    3 < (headerRegion [3#8, 0#8, 0xBF#8, 0x32#8, 0x4A#8]).length := by decide

theorem witness_AddressByteIsDestination :
    RoutingTuple.Valid ⟨1#8, 3#8, 31#8, 10#8, 63#8⟩ ∧ ∃ b, encodeResult .fault ⟨1#8, 3#8, 31#8, 10#8, 63#8⟩ = .ok b :=
  ⟨by decide, ⟨_, rfl⟩⟩

theorem witness_ReplyHeaderOfConfiguration : (31#8).toNat < 32 ∧ (0#8).toNat < 32 ∧ (63#8).toNat < 64 := by decide

theorem witness_DispatchOfShortFrame :
    ([3#8, 0#8, 0xBF#8, 0x32#8] : List Byte).length < 5 ∧
    (fun p : List Byte => if p = [0x35#8] then some (5 : Int) else none) [] ≠ some getData ∧
    ([1#8, 2#8, 3#8, 4#8, 5#8, 0x35#8] : List Byte).drop 5 = ([9#8, 9#8, 9#8, 9#8, 9#8, 0x35#8] : List Byte).drop 5 := by decide

theorem witness_BoundaryWrapperAgrees :
    ¬ (Request.encode 256 0 0 0 0).Presentable ∧ ¬ PresentableOperand 256 ∧ ¬ PresentableOperand (mkRat 1 2) ∧
    ¬ PresentableOperand (-1) ∧
    ([] : List Byte).length ≤ 7 ∧ (List.replicate 7 (0#8 : Byte)).length ≤ 7 ∧ 7 < (List.replicate 8 (0#8 : Byte)).length := by decide

end Sys2Proof.Tests
end

/-!
SUPPORT. Slices, shifts and low-bit masks of bit vectors of any width, in the forms the header word and the gate equations use.
-/

namespace Sys2Proof.Proofs

/-- A slice of a slice is a slice. -/
theorem extractLsb'_extractLsb' {n i m j k : Nat} (x : BitVec n) (h : j + k ≤ m) :
    (x.extractLsb' i m).extractLsb' j k = x.extractLsb' (i + j) k := by
  ext b hb
  simp [show j + b < m by omega, Nat.add_assoc]

/-- A slice that starts at or below a field's place sees the field shifted up. -/
theorem extractLsb'_shiftLeft_of_ge {w n k j m : Nat} (x : BitVec w) (hjk : j ≤ k) (hn : j + m ≤ n) :
    (x.setWidth n <<< k).extractLsb' j m = x.setWidth m <<< (k - j) := by
  ext i hi
  have hsub : j + i - k = i - (k - j) := by omega
  have hlt : j + i < k ↔ i < k - j := by omega
  simp [hsub, hlt, show j + i < n by omega]

/-- A slice that starts at or above a field's place sees the field shifted down. -/
theorem extractLsb'_shiftLeft_of_le {w n k j m : Nat} (x : BitVec w) (hkj : k ≤ j) (hn : j + m ≤ n) (hw : w ≤ m) :
    (x.setWidth n <<< k).extractLsb' j m = x.setWidth m >>> (j - k) := by
  ext i hi
  have hsub : j + i - k = j - k + i := by omega
  rcases Nat.lt_or_ge (j - k + i) w with hbit | hbit
  · simp [hsub, show j + i < n by omega, show ¬ j + i < k by omega, show j - k + i < m by omega]
  · simp [hsub, BitVec.getLsbD_of_ge x _ hbit]

/-- `extractLsb'_shiftLeft_of_le` of the field at place 0. -/
theorem extractLsb'_setWidth {w n j m : Nat} (x : BitVec w) (hn : j + m ≤ n) (hw : w ≤ m) :
    (x.setWidth n).extractLsb' j m = x.setWidth m >>> j := by
  simpa using extractLsb'_shiftLeft_of_le (k := 0) x j.zero_le hn hw

/-- A shift that drops the high bits makes a mask of the low bits superfluous. -/
theorem shiftLeft_and_lowMask {n k : Nat} (v : BitVec n) (hk : k ≤ n) :
    (v &&& BitVec.ofNat n (2 ^ k - 1)) <<< (n - k) = v <<< (n - k) := by
  ext i hi
  rcases Nat.lt_or_ge i (n - k) with h | h
  · simp [h]
  · have hlow : i - (n - k) < k := by omega
    have hin : i - (n - k) < n := by omega
    simp [BitVec.getElem_eq_testBit_toNat, hlow, hin, -BitVec.natCast_eq_ofNat]

/-- The bits at and above place `w` are zero exactly when the value is below `2 ^ w`. -/
theorem extractLsb'_high_eq_zero_iff {n w : Nat} (v : BitVec n) (hw : w ≤ n) :
    v.extractLsb' w (n - w) = 0#(n - w) ↔ v.toNat < 2 ^ w := by
  have hhigh : v.toNat / 2 ^ w < 2 ^ (n - w) :=
    Nat.div_lt_of_lt_mul (by rw [← Nat.pow_add, Nat.add_sub_cancel' hw]; exact v.isLt)
  rw [← BitVec.toNat_inj, BitVec.extractLsb'_toNat, BitVec.toNat_ofNat, Nat.zero_mod,
    Nat.shiftRight_eq_div_pow, Nat.mod_eq_of_lt hhigh, Nat.div_eq_zero_iff]
  simp

/-- A value that fits `w` bits survives being cut to `w` bits and zero-extended. -/
theorem setWidth_setWidth_of_lt {n w : Nat} {v : BitVec n} (h : v.toNat < 2 ^ w) : (v.setWidth w).setWidth n = v := by
  rw [← BitVec.toNat_inj, BitVec.toNat_setWidth, BitVec.toNat_setWidth, Nat.mod_eq_of_lt h, Nat.mod_eq_of_lt v.isLt]

end Sys2Proof.Proofs

/-!
SUPPORT. The header word's functions against the equations of the pins: the wire bytes of a packed header are the per-byte
equations of 40_encode R71, the fields of the received word the per-field equations of 41_decode R87, and the range check on the
upper bits that of 40_encode R67.
-/

namespace Sys2Proof.Proofs

open Sys2Proof Sys2Proof.Machine

/-! ## The decoder -/

/-- `to_wire` undoes `from_wire` (30_encoding R52). -/
theorem toWire_fromWire (b : WireHeader) : toWire (fromWire b) = b := by
  rw [toWire_eq, fromWire]
  simp [BitVec.extractLsb'_or, extractLsb'_shiftLeft_of_ge, extractLsb'_shiftLeft_of_le, extractLsb'_setWidth,
    BitVec.ushiftRight_eq_zero]

/-- Every field of a word as slices of its wire bytes. -/
theorem unpack_eq_slices_toWire (w : Word) :
    unpack w =
      { priority    := (toWire w).b3.extractLsb' 6 2
        source      := (toWire w).b3.extractLsb' 1 5
        destination := (toWire w).b3.extractLsb' 0 1 ++ (toWire w).b2.extractLsb' 4 4
        destPort    := (toWire w).b2.extractLsb' 0 4 ++ (toWire w).b1.extractLsb' 6 2
        sourcePort  := (toWire w).b1.extractLsb' 0 6
        reserved    := (toWire w).b0 } := by
  have hd : w.extractLsb' 24 1 ++ w.extractLsb' 20 4 = w.extractLsb' 20 5 :=
    BitVec.extractLsb'_append_extractLsb'_eq_extractLsb' rfl
  have ht : w.extractLsb' 16 4 ++ w.extractLsb' 14 2 = w.extractLsb' 14 6 :=
    BitVec.extractLsb'_append_extractLsb'_eq_extractLsb' rfl
  simp [unpack, toWire_eq, extractLsb'_extractLsb', hd, ht]

/-- The decoder's gate equations through the received word. -/
theorem decoderGates_eq (r : ReceivedHeader) :
    decoderGates r = if r.len = 4#3 then ⟨unpack (fromWire r.wire), 0#1⟩ else ⟨Config.emptyHeader, 1#1⟩ := by
  rw [unpack_eq_slices_toWire, toWire_fromWire]
  rfl

/-! ## The encoder's wire bytes -/

/-- The per-byte equations of 40_encode R71, as `encoderGates` has them where no operand is out of range. -/
def encoderBytes (t : RoutingTuple) : WireHeader :=
  { b3 := (t.priority <<< 6) ||| (t.source <<< 1) ||| (t.destination >>> 4)
    b2 := ((t.destination &&& 0x0F#8) <<< 4) ||| (t.destPort >>> 2)
    b1 := ((t.destPort &&& 0x03#8) <<< 6) ||| t.sourcePort
    b0 := 0x00#8 }

/-- The wire bytes of a header as ENCODE packs it are the per-byte equations over its fields as operands. -/
theorem toWire_pack_of_reserved_zero {h : Header} (hr : h.reserved = 0x00#8) :
    toWire (pack h) = encoderBytes (tupleOf h) := by
  have h4 (v : Byte) : (v &&& 0x0F#8) <<< 4 = v <<< 4 := shiftLeft_and_lowMask (k := 4) v (by decide)
  have h2 (v : Byte) : (v &&& 0x03#8) <<< 6 = v <<< 6 := shiftLeft_and_lowMask (k := 2) v (by decide)
  rw [toWire_eq, pack, encoderBytes, tupleOf, hr]
  simp [h4, h2, BitVec.extractLsb'_or, extractLsb'_shiftLeft_of_ge, extractLsb'_shiftLeft_of_le, BitVec.ushiftRight_eq_zero]

/-- Cutting the operands of a valid tuple to their fields loses nothing (00_scope R14). -/
theorem tupleOf_fieldsOf {t : RoutingTuple} (h : t.Valid) : tupleOf (fieldsOf t) = t := by
  obtain ⟨hp, hs, hd, ht, hu⟩ := h
  simp only [tupleOf, fieldsOf]
  rw [setWidth_setWidth_of_lt (w := 2) hp, setWidth_setWidth_of_lt (w := 5) hs, setWidth_setWidth_of_lt (w := 5) hd,
    setWidth_setWidth_of_lt (w := 6) ht, setWidth_setWidth_of_lt (w := 6) hu]

/-- On a valid tuple the header word's bytes are the per-byte equations (40_encode R71). -/
theorem toWire_pack_fieldsOf {t : RoutingTuple} (h : t.Valid) : toWire (pack (fieldsOf t)) = encoderBytes t := by
  rw [toWire_pack_of_reserved_zero (fieldsOf_reserved t), tupleOf_fieldsOf h]

/-! ## The encoder's range check -/

/-- An out-of-range bit as a check of the operand's upper bits (40_encode R67). -/
theorem oorBit_outOfRange {w : Nat} (hw : w ≤ 8) (i : Nat) (v : Operand) :
    oorBit i (outOfRange w v) = if v.extractLsb' w (8 - w) ≠ 0#(8 - w) then 1#5 <<< i else 0#5 := by
  simp only [oorBit, outOfRange_iff, ne_eq, extractLsb'_high_eq_zero_iff v hw, Nat.not_lt]

theorem oorBit_eq_zero_iff {i : Nat} (hi : i < 5) (bad : Bool) : oorBit i bad = 0#5 ↔ bad = false := by
  interval_cases i <;> cases bad <;> decide

/-- No out-of-range bit is set exactly when the tuple is valid (40_encode R67, R73). -/
theorem oorVector_eq_zero_iff (t : RoutingTuple) : oorVector t = 0#5 ↔ t.Valid := by
  simp [oorVector, RoutingTuple.Valid, oorBit_eq_zero_iff, outOfRange, and_assoc, Config.priW, Config.srcW, Config.dstW,
    Config.dportW, Config.sportW]

/-- The range check of the gate equations, each operand's upper bits compared with zero, is `oorVector`. -/
theorem oorVector_eq_upperBits (t : RoutingTuple) :
    oorVector t =
      (if t.sourcePort.extractLsb' 6 2 ≠ 0#2 then 0b10000#5 else 0#5) ||| (if t.destPort.extractLsb' 6 2 ≠ 0#2 then 0b01000#5 else 0#5)
      ||| (if t.destination.extractLsb' 5 3 ≠ 0#3 then 0b00100#5 else 0#5) ||| (if t.source.extractLsb' 5 3 ≠ 0#3 then 0b00010#5 else 0#5)
      ||| (if t.priority.extractLsb' 2 6 ≠ 0#6 then 0b00001#5 else 0#5) := by
  have hp : oorBit 0 (outOfRange 2 t.priority) = if t.priority.extractLsb' 2 6 ≠ 0#6 then 0b00001#5 else 0#5 :=
    oorBit_outOfRange (by decide) 0 t.priority
  have hs : oorBit 1 (outOfRange 5 t.source) = if t.source.extractLsb' 5 3 ≠ 0#3 then 0b00010#5 else 0#5 :=
    oorBit_outOfRange (by decide) 1 t.source
  have hd : oorBit 2 (outOfRange 5 t.destination) = if t.destination.extractLsb' 5 3 ≠ 0#3 then 0b00100#5 else 0#5 :=
    oorBit_outOfRange (by decide) 2 t.destination
  have ht : oorBit 3 (outOfRange 6 t.destPort) = if t.destPort.extractLsb' 6 2 ≠ 0#2 then 0b01000#5 else 0#5 :=
    oorBit_outOfRange (by decide) 3 t.destPort
  have hu : oorBit 4 (outOfRange 6 t.sourcePort) = if t.sourcePort.extractLsb' 6 2 ≠ 0#2 then 0b10000#5 else 0#5 :=
    oorBit_outOfRange (by decide) 4 t.sourcePort
  rw [oorVector, hp, hs, hd, ht, hu]
  ac_rfl

/-- The encoder's gate equations by the range check. -/
theorem encoderGates_eq (t : RoutingTuple) :
    encoderGates t = if oorVector t = 0#5 then ⟨encoderBytes t, 0#1, 0#5⟩ else ⟨⟨0#8, 0#8, 0#8, 0#8⟩, 1#1, oorVector t⟩ := by
  rw [oorVector_eq_upperBits]
  rfl

end Sys2Proof.Proofs

/-!
SUPPORT. The pin-level view and the function-level view agree (10_state R19), and so what one evaluation of a datapath leaves on
its pins and on those of the other.
-/

namespace Sys2Proof.Proofs

open Sys2Proof Sys2Proof.Machine

/-- The encoder's pins carry what ENCODE's function answers under `FAULT`, the operands' own vector where it is an error. -/
theorem encoderGates_eq_encodeResult (t : RoutingTuple) :
    (encodeResult .fault t = .ok (toWire (pack (fieldsOf t))) ∧ encoderGates t = ⟨toWire (pack (fieldsOf t)), 0#1, 0#5⟩) ∨
    (encodeResult .fault t = .error (.encodeRange (oorVector t)) ∧
      encoderGates t = ⟨⟨0#8, 0#8, 0#8, 0#8⟩, 1#1, oorVector t⟩) := by
  rcases encodeResult_cases .fault t with ⟨hres, -, hoor⟩ | ⟨hres, hmask | hoor⟩
  · exact .inr ⟨hres, by rw [encoderGates_eq, if_neg hoor]⟩
  · cases hmask
  · exact .inl ⟨hres, by rw [encoderGates_eq, if_pos hoor, toWire_pack_fieldsOf ((oorVector_eq_zero_iff t).1 hoor)]⟩

/-- The decoder's pins carry what DECODE's function answers. -/
theorem decoderGates_eq_decodeResult (r : ReceivedHeader) :
    (decodeResult r = .ok (unpack (fromWire r.wire)) ∧ decoderGates r = ⟨unpack (fromWire r.wire), 0#1⟩) ∨
    (decodeResult r = .error (.decodeLength r.len) ∧ decoderGates r = ⟨Config.emptyHeader, 1#1⟩) := by
  rcases decodeResult_cases r with ⟨hres, hlen⟩ | ⟨hres, hlen⟩
  · exact .inl ⟨hres, by rw [decoderGates_eq, if_pos hlen]⟩
  · exact .inr ⟨hres, by rw [decoderGates_eq, if_neg hlen]⟩

/-- Settles O43: on either side of the range check and of the length check. -/
theorem pinViewEqualsFunctionView : Obligations.PinViewEqualsFunctionView := by
  constructor
  · intro t
    rcases encoderGates_eq_encodeResult t with ⟨hres, hgates⟩ | ⟨hres, hgates⟩ <;> rw [hres, hgates]
  · intro r
    rcases decoderGates_eq_decodeResult r with ⟨hres, hgates⟩ | ⟨hres, hgates⟩ <;> rw [hres, hgates]

section Run

variable (s : State) (policy : OorPolicy) (t : RoutingTuple) (r : ReceivedHeader)

@[simp] theorem runEncoder_encIn : (s.runEncoder policy t).encIn = t := by rw [runEncoder_spec]
@[simp] theorem runEncoder_decIn : (s.runEncoder policy t).decIn = s.decIn := by rw [runEncoder_spec]
@[simp] theorem runEncoder_decOut : (s.runEncoder policy t).decOut = s.decOut := by rw [runEncoder_spec]
@[simp] theorem runEncoder_pending : (s.runEncoder policy t).pending = s.pending := by rw [runEncoder_spec]

/-- Under `FAULT` the encoder's outputs are the gate equations of the operands, whatever the pins held. -/
@[simp] theorem runEncoder_fault_encOut : (s.runEncoder .fault t).encOut = encoderGates t := by
  rw [runEncoder_spec]
  rcases encoderGates_eq_encodeResult t with ⟨hres, hgates⟩ | ⟨hres, hgates⟩ <;> rw [hres, hgates]

@[simp] theorem runDecoder_encIn : (s.runDecoder r).encIn = s.encIn := by rw [runDecoder_spec]
@[simp] theorem runDecoder_encOut : (s.runDecoder r).encOut = s.encOut := by rw [runDecoder_spec]
@[simp] theorem runDecoder_decIn : (s.runDecoder r).decIn = r := by rw [runDecoder_spec]
@[simp] theorem runDecoder_pending : (s.runDecoder r).pending = s.pending := by rw [runDecoder_spec]

/-- The decoder's outputs are the gate equations of the bytes and the length, whatever the pins held. -/
@[simp] theorem runDecoder_decOut : (s.runDecoder r).decOut = decoderGates r := by
  rw [runDecoder_spec]
  rcases decoderGates_eq_decodeResult r with ⟨hres, hgates⟩ | ⟨hres, hgates⟩ <;> rw [hres, hgates]

/-- ENCODE on this hardware is one evaluation of the encoder under `FAULT` (40_encode R69). -/
theorem exec_encode (p so d t u : Operand) :
    exec (.encode p so d t u) s = .next (s.runEncoder .fault ⟨p, so, d, t, u⟩) := rfl

/-- DECODE is one evaluation of the decoder (41_decode R85). -/
theorem exec_decode (b0 b1 b2 b3 : Byte) (n : Len) :
    exec (.decode b0 b1 b2 b3 n) s = .next (s.runDecoder ⟨⟨b0, b1, b2, b3⟩, n⟩) := rfl

end Run

end Sys2Proof.Proofs

/-!
SUPPORT. The invariant of the machine: every output pin is the function of the input pins (10_state R17), at one operation and
along every step.
-/

namespace Sys2Proof.Proofs

open Sys2Proof Sys2Proof.Machine

/-- An operation makes its own datapath's outputs right and leaves the other datapath as it was, so it keeps `Driven`. -/
theorem exec_keeps_driven {i : Instr} {s s' : State} (hexec : exec i s = .next s') (hs : Driven s) : Driven s' := by
  obtain ⟨henc, hdec⟩ := hs
  rcases exec_cases hexec with ⟨p, so, d, t, u, -, rfl⟩ | ⟨b0, b1, b2, b3, n, -, rfl⟩
  · exact ⟨by simp [EncoderDriven, Config.hardware], by simpa [DecoderDriven] using hdec⟩
  · exact ⟨by simpa [EncoderDriven] using henc, by simp [DecoderDriven]⟩

/-- Settles O3: a step changes nothing or performs one operation, and an operation keeps `Driven`, which does not read the list. -/
theorem everyStepKeepsOutputsFollowingInputs : Obligations.EveryStepKeepsOutputsFollowingInputs := by
  intro s s' hs hstep
  rcases step_cases hstep with ⟨-, rfl⟩ | ⟨r, rest, i, -, -, hexec⟩
  · exact hs
  · have hrest : Driven { s with pending := rest } := hs
    exact exec_keeps_driven hexec hrest

/-- Settles O4, by what one evaluation of each datapath leaves on its pins. -/
theorem operationDrivesItsOwnDatapath : Obligations.OperationDrivesItsOwnDatapath := by
  constructor
  · intro p so d t u s s' hexec
    rw [exec_encode] at hexec
    cases hexec
    exact ⟨runEncoder_encIn .., runEncoder_fault_encOut ..⟩
  · intro b0 b1 b2 b3 n s s' hexec
    rw [exec_decode] at hexec
    cases hexec
    exact ⟨runDecoder_decIn .., runDecoder_decOut ..⟩

/-- Settles O1: `State.reset` is written with these values. -/
theorem resetPinsAreThoseOfZeroInputs : Obligations.ResetPinsAreThoseOfZeroInputs := ⟨rfl, rfl, rfl, rfl, rfl⟩

end Sys2Proof.Proofs

/-!
SUPPORT. Requests on the pins (10_state R19, 60_exceptions R119) and the three cases of a step.
-/

namespace Sys2Proof.Proofs

open Sys2Proof Sys2Proof.Machine

/-! ## The three cases of a step -/

theorem step_of_pending_nil {s : State} (hp : s.pending = []) : step s = .next s := by
  simp [step, hp]

theorem step_of_present_ok {s : State} {r : Request} {rest : List Request} {i : Instr}
    (hp : s.pending = r :: rest) (hr : present s.decIn r = .ok i) : step s = exec i { s with pending := rest } := by
  simp [step, hp, hr]

theorem step_of_present_error {s : State} {r : Request} {rest : List Request} {why : Unpresentable}
    (hp : s.pending = r :: rest) (hr : present s.decIn r = .error why) : step s = .refused (.notPresentable why) := by
  simp [step, hp, hr]

/-- Settles O19. -/
theorem stepRunsTheNextOperation : Obligations.StepRunsTheNextOperation :=
  ⟨fun _ _ _ _ => step_of_present_ok, fun _ _ _ _ => step_of_present_error, fun _ => step_of_pending_nil⟩

/-! ## The request of an operation -/

theorem presentableOperand_toNat (v : Operand) : PresentableOperand (v.toNat : Rat) := by
  have := v.isLt
  refine ⟨Rat.den_natCast _, ?_, ?_⟩ <;> rw [Rat.num_natCast] <;> omega

/-- The value on an operand pin, handed back as a software argument, is that pin's value again. -/
theorem presentOperand_toNat (which : OperandName) (v : Operand) : presentOperand which (v.toNat : Rat) = .ok v := by
  rw [presentOperand, if_pos (presentableOperand_toNat v), Rat.num_natCast, BitVec.ofInt_natCast, BitVec.ofNat_toNat,
    BitVec.setWidth_eq]

theorem present_requestOf_encode (held : ReceivedHeader) (p so d t u : Operand) :
    present held (requestOf (.encode p so d t u)) = .ok (.encode p so d t u) := by
  simp only [requestOf, present, presentOperand_toNat]
  rfl

/-- Reading the first `n` of a list's elements below `n`, or with the list's own element as the default, reads the list. -/
theorem getD_take_eq {α : Type} {l : List α} {i n : Nat} {a b : α} (hl : l[i]? = some a) (h : i < n ∨ b = a) :
    (l.take n).getD i b = a := by
  rw [List.getD_eq_getElem?_getD, List.getElem?_take, hl]
  rcases h with hi | rfl
  · rw [if_pos hi, Option.getD_some]
  · split <;> rfl

/-- The bytes of a DECODE, put on the pins: all four are driven from length 4 on, and a pin not driven that holds its byte
already keeps it (log 7). -/
theorem onPins_take {held : WireHeader} {b0 b1 b2 b3 : Byte} {n : Len}
    (h : 4 ≤ n.toNat ∨ held = ⟨b0, b1, b2, b3⟩) :
    onPins held ([b0, b1, b2, b3, 0#8, 0#8, 0#8].take n.toNat) = ⟨⟨b0, b1, b2, b3⟩, n⟩ := by
  have hlen : min n.toNat 7 = n.toNat := by omega
  have hbyte {i : Nat} {heldByte byte : Byte} (hi : i < 4) (hheld : held = ⟨b0, b1, b2, b3⟩ → heldByte = byte) :
      i < n.toNat ∨ heldByte = byte := h.imp hi.trans_le hheld
  rw [onPins, getD_take_eq (a := b0) rfl (hbyte (by decide) (by rintro rfl; rfl)),
    getD_take_eq (a := b1) rfl (hbyte (by decide) (by rintro rfl; rfl)),
    getD_take_eq (a := b2) rfl (hbyte (by decide) (by rintro rfl; rfl)),
    getD_take_eq (a := b3) rfl (hbyte (by decide) (by rintro rfl; rfl))]
  simp [hlen]

theorem present_requestOf_decode {held : ReceivedHeader} {b0 b1 b2 b3 : Byte} {n : Len}
    (h : 4 ≤ n.toNat ∨ held.wire = ⟨b0, b1, b2, b3⟩) :
    present held (requestOf (.decode b0 b1 b2 b3 n)) = .ok (.decode b0 b1 b2 b3 n) := by
  have hfits : ([b0, b1, b2, b3, 0#8, 0#8, 0#8].take n.toNat).length ≤ 7 := List.length_take_le' ..
  rw [requestOf, present, if_pos hfits, onPins_take h]

/-- Settles O18, operation by operation. -/
theorem requestPresentsItsOperation : Obligations.RequestPresentsItsOperation :=
  ⟨fun p so d t u held => present_requestOf_encode held p so d t u, fun _ _ _ _ _ _ => present_requestOf_decode⟩

end Sys2Proof.Proofs

/-!
SUPPORT. How the wire bytes lie in memory (20_memory R32, R34): the slices of the word, and what the two loads of a host obtain.
-/

namespace Sys2Proof.Proofs

open Sys2Proof Sys2Proof.Machine

/-- Wire byte `i` is the slice of the word at bit `8 * i` (20_memory R32). -/
theorem wireBytes_toWire_getElem? (w : Word) (i : Fin 4) :
    (wireBytes (toWire w))[i.val]? = some (w.extractLsb' (8 * i.val) 8) := by
  fin_cases i <;> rfl

/-- Group `3 - i` of the logical string is the slice of the word at bit `8 * i` (30_encoding R47). -/
theorem group_three_sub (w : Word) (i : Fin 4) : group w (3 - i) = w.extractLsb' (8 * i.val) 8 := by
  fin_cases i <;> rfl

/-- Settles O11: wire byte and group are the same slice, and bit `k` of a slice is the bit `k` above its place. -/
theorem wireByteIsSliceOfWord : Obligations.WireByteIsSliceOfWord := by
  intro w i
  refine ⟨wireBytes_toWire_getElem? w i, ?_, fun k hk => ?_⟩
  · rw [group_three_sub, wireBytes_toWire_getElem?]
  · simp [hk]

/-- A little-endian load of a word's wire bytes is the word (20_memory R34). -/
theorem loadLittle_toWire (w : Word) : loadLittle (toWire w) = w.toNat := by
  have := w.isLt
  simp only [loadLittle, toWire_eq, BitVec.extractLsb'_toNat, Nat.shiftRight_eq_div_pow]
  omega

/-- A little-endian load of any four wire bytes is the word `from_wire` makes of them. -/
theorem loadLittle_eq_fromWire (b : WireHeader) : loadLittle b = (fromWire b).toNat := by
  rw [← loadLittle_toWire, toWire_fromWire]

/-- The wire bytes last byte first. -/
def reverseWire (b : WireHeader) : WireHeader := { b0 := b.b3, b1 := b.b2, b2 := b.b1, b3 := b.b0 }

theorem loadBig_eq_loadLittle_reverseWire (b : WireHeader) : loadBig b = loadLittle (reverseWire b) := by
  simp only [loadBig, loadLittle, reverseWire]
  omega

theorem fromWire_reverseWire_toWire (w : Word) : fromWire (reverseWire (toWire w)) = swapBytes w := rfl

/-- A big-endian load of a word's wire bytes is the word with its bytes reversed (20_memory R34). -/
theorem loadBig_toWire (w : Word) : loadBig (toWire w) = (swapBytes w).toNat := by
  rw [loadBig_eq_loadLittle_reverseWire, loadLittle_eq_fromWire, fromWire_reverseWire_toWire]

/-- A word is the concatenation of its wire bytes, the last one first. -/
theorem append_toWire (w : Word) : (toWire w).b3 ++ (toWire w).b2 ++ (toWire w).b1 ++ (toWire w).b0 = w := by
  have h16 : w.extractLsb' 24 8 ++ w.extractLsb' 16 8 = w.extractLsb' 16 16 :=
    BitVec.extractLsb'_append_extractLsb'_eq_extractLsb' rfl
  have h8 : w.extractLsb' 16 16 ++ w.extractLsb' 8 8 = w.extractLsb' 8 24 :=
    BitVec.extractLsb'_append_extractLsb'_eq_extractLsb' rfl
  have h0 : w.extractLsb' 8 24 ++ w.extractLsb' 0 8 = w.extractLsb' 0 32 :=
    BitVec.extractLsb'_append_extractLsb'_eq_extractLsb' rfl
  simp only [toWire_eq, h16, h8, h0, BitVec.extractLsb'_eq_self]

/-- `from_wire` as a concatenation (30_encoding R52). -/
theorem fromWire_eq_append (b : WireHeader) : fromWire b = b.b3 ++ b.b2 ++ b.b1 ++ b.b0 := by
  have happend := append_toWire (fromWire b)
  rw [toWire_fromWire] at happend
  exact happend.symm

/-- Settles O14: the example's two words and their slices are evaluated. -/
theorem mixedWidthLoads : Obligations.MixedWidthLoads := by
  refine ⟨fun w => ⟨loadLittle_toWire w, loadBig_toWire w, ?_⟩, by decide, by decide, by decide, by decide⟩
  rw [← fromWire_reverseWire_toWire, fromWire_eq_append]
  rfl

end Sys2Proof.Proofs

/-!
SUPPORT. Independence of the two datapaths and of what earlier operations left (20_memory R41, R44, 60_exceptions R111, R113).
-/

namespace Sys2Proof.Proofs

open Sys2Proof Sys2Proof.Machine

/-- Settles O45: each side's pins are the operands and the gate equations over them. -/
theorem outputsIndependentOfHistory : Obligations.OutputsIndependentOfHistory := by
  obtain ⟨hencode, hdecode⟩ := operationDrivesItsOwnDatapath
  intro i s1 s2 s1' s2' hexec1 hexec2
  cases i with
  | encode p so d t u =>
    obtain ⟨hin1, hout1⟩ := hencode p so d t u s1 s1' hexec1
    obtain ⟨hin2, hout2⟩ := hencode p so d t u s2 s2' hexec2
    exact ⟨fun _ => ⟨hin1.trans hin2.symm, hout1.trans hout2.symm⟩, nofun⟩
  | decode b0 b1 b2 b3 n =>
    obtain ⟨hin1, hout1⟩ := hdecode b0 b1 b2 b3 n s1 s1' hexec1
    obtain ⟨hin2, hout2⟩ := hdecode b0 b1 b2 b3 n s2 s2' hexec2
    exact ⟨nofun, fun _ => ⟨hin1.trans hin2.symm, hout1.trans hout2.symm⟩⟩

section Run

variable (s : State) (policy : OorPolicy) (t : RoutingTuple) (r : ReceivedHeader)

/-- A second evaluation of the encoder on the same operands changes nothing (20_memory R41). -/
@[simp] theorem runEncoder_runEncoder : (s.runEncoder policy t).runEncoder policy t = s.runEncoder policy t := by
  rw [runEncoder_spec (s.runEncoder policy t), runEncoder_spec s]

/-- A second evaluation of the decoder on the same bytes and length changes nothing (20_memory R41). -/
@[simp] theorem runDecoder_runDecoder : (s.runDecoder r).runDecoder r = s.runDecoder r := by
  rw [runDecoder_spec (s.runDecoder r), runDecoder_spec s]

/-- The two datapaths write different pins from their own operands alone, so their order does not show (20_memory R44). -/
theorem runDecoder_runEncoder : (s.runEncoder policy t).runDecoder r = (s.runDecoder r).runEncoder policy t := by
  simp only [runEncoder_spec, runDecoder_spec]

end Run

/-- Settles O47, operation by operation. -/
theorem operationsAreIdempotent : Obligations.OperationsAreIdempotent := by
  intro i s s' hexec
  rcases exec_cases hexec with ⟨p, so, d, t, u, rfl, rfl⟩ | ⟨b0, b1, b2, b3, n, rfl, rfl⟩
  · rw [exec_encode, Config.hardware, runEncoder_runEncoder]
  · rw [exec_decode, runDecoder_runDecoder]

/-- `enc_err` is driven exactly for an invalid tuple (40_encode R73). -/
theorem encoderGates_err_iff (t : RoutingTuple) : (encoderGates t).err = 1#1 ↔ ¬ t.Valid := by
  rw [encoderGates_eq, ← oorVector_eq_zero_iff]
  split <;> simp [*]

/-- `dec_err` is driven exactly for a length other than 4 (41_decode R82). -/
theorem decoderGates_err_iff (r : ReceivedHeader) : (decoderGates r).err = 1#1 ↔ r.len ≠ 4#3 := by
  rw [decoderGates_eq]
  split <;> simp [*]

/-- Settles O46: the state both orders meet in is the decoder's evaluation after the encoder's. -/
theorem encodeAndDecodeCommute : Obligations.EncodeAndDecodeCommute := by
  intro p so d t u b0 b1 b2 b3 n s
  refine ⟨_, _, _, exec_encode .., exec_decode .., exec_decode .., ?_, ?_, ?_⟩
  · rw [exec_encode, runDecoder_runEncoder]
  · rw [runDecoder_encOut, runEncoder_fault_encOut, encoderGates_err_iff]
  · rw [runDecoder_decOut, decoderGates_err_iff]

end Sys2Proof.Proofs

/-!
SUPPORT. The header region of a frame on the decoder's pins (20_memory R38).
-/

namespace Sys2Proof.Proofs

open Sys2Proof Sys2Proof.Machine

/-- A wire pin the host has a byte for carries that byte (10_state R19). -/
theorem wireBytes_onPins_getElem? (held : WireHeader) {bytes : List Byte} {k : Nat} (hk : k < bytes.length) (hpin : k < 4) :
    (wireBytes (onPins held bytes).wire)[k]? = bytes[k]? := by
  rw [List.getElem?_eq_getElem hk]
  interval_cases k <;> simp [wireBytes, onPins, hk]

theorem length_headerRegion (f : List Byte) : (headerRegion f).length = min 4 (f.length - 1) := by
  simp [headerRegion]

theorem headerRegion_getElem? (f : List Byte) {k : Nat} (hk : k < 4) : (headerRegion f)[k]? = f[k + 1]? := by
  simp [headerRegion, hk]

/-- The count a frame's header region puts on `dec_len`. -/
theorem onPins_headerRegion_len (held : WireHeader) (f : List Byte) :
    (onPins held (headerRegion f)).len = BitVec.ofNat 3 (min 4 (f.length - 1)) := by
  rw [onPins, length_headerRegion]

/-- The header region of a frame is presentable: it has at most 4 bytes. -/
theorem present_frameRequest (held : ReceivedHeader) (f : List Byte) :
    present held (frameRequest f) =
      .ok (.decode (onPins held.wire (headerRegion f)).wire.b0 (onPins held.wire (headerRegion f)).wire.b1
        (onPins held.wire (headerRegion f)).wire.b2 (onPins held.wire (headerRegion f)).wire.b3
        (BitVec.ofNat 3 (min 4 (f.length - 1)))) := by
  have hfits : (headerRegion f).length ≤ 7 := by rw [length_headerRegion]; omega
  rw [← onPins_headerRegion_len held.wire, frameRequest, present, if_pos hfits]

theorem decodeResult_of_len_ne {r : ReceivedHeader} (h : r.len ≠ 4#3) : decodeResult r = .error (.decodeLength r.len) := by
  rcases decodeResult_cases r with ⟨-, hlen⟩ | ⟨hres, -⟩
  · exact absurd hlen h
  · exact hres

theorem decodeResult_of_len_eq {r : ReceivedHeader} (h : r.len = 4#3) : decodeResult r = .ok (unpack (fromWire r.wire)) := by
  rcases decodeResult_cases r with ⟨hres, -⟩ | ⟨-, hlen⟩
  · exact hres
  · exact absurd h hlen

/-- Settles O52: the region is cut out of the frame, and its count meets DECODE's length check. -/
theorem frameGivesHeaderRegion : Obligations.FrameGivesHeaderRegion := by
  intro f
  refine ⟨length_headerRegion f, fun held k hk => ?_, fun held => present_frameRequest held f, fun held hlong => ?_,
    fun held hshort => ?_⟩
  · have hpin : k < 4 := by rw [length_headerRegion] at hk; omega
    rw [wireBytes_onPins_getElem? held hk hpin, and_self, headerRegion_getElem? f hpin]
  · have hcount : min 4 (f.length - 1) = 4 := by omega
    exact ⟨_, decodeResult_of_len_eq (by rw [onPins_headerRegion_len, hcount])⟩
  · have hcount : min 4 (f.length - 1) = f.length - 1 := by omega
    have hlen : (onPins held (headerRegion f)).len = BitVec.ofNat 3 (f.length - 1) := by
      rw [onPins_headerRegion_len, hcount]
    have hne : BitVec.ofNat 3 (f.length - 1) ≠ 4#3 := by
      rw [ne_eq, ← BitVec.toNat_inj, BitVec.toNat_ofNat, BitVec.toNat_ofNat]
      omega
    rw [decodeResult_of_len_ne (hlen ▸ hne), hlen]

end Sys2Proof.Proofs

/-!
SUPPORT. The header word (30_encoding R45 to R50): `pack` and `unpack` are inverse, `pack` is a concatenation, and what a mask in
place leaves of a word.
-/

namespace Sys2Proof.Proofs

open Sys2Proof Sys2Proof.Machine

/-! ## Slices against shifts and masks -/

/-- A slice above a field's bits sees none of them. -/
theorem extractLsb'_shiftLeft_of_above {w n k j m : Nat} (x : BitVec w) (h : k + w ≤ j) :
    (x.setWidth n <<< k).extractLsb' j m = 0#m := by
  ext i hi
  simp [BitVec.getLsbD_of_ge x (j + i - k) (by omega)]

/-- A slice above the bits of the field at place 0 sees none of them. -/
theorem extractLsb'_setWidth_of_above {w n j m : Nat} (x : BitVec w) (h : w ≤ j) :
    (x.setWidth n).extractLsb' j m = 0#m := by
  simpa using extractLsb'_shiftLeft_of_above (n := n) (k := 0) (m := m) x (by omega : 0 + w ≤ j)

/-- A slice, zero-extended, is a shift and a mask of its width. -/
theorem setWidth_extractLsb'_eq_and_lowMask {n : Nat} (x : BitVec n) (k m : Nat) :
    (x.extractLsb' k m).setWidth n = x >>> k &&& BitVec.ofNat n (2 ^ m - 1) := by
  ext i hi
  simp [BitVec.getElem_eq_testBit_toNat, hi, Bool.and_comm, -BitVec.natCast_eq_ofNat]

/-- A mask of the low bits is the slice at place 0, zero-extended. -/
theorem and_lowMask {n : Nat} (x : BitVec n) (m : Nat) :
    x &&& BitVec.ofNat n (2 ^ m - 1) = (x.extractLsb' 0 m).setWidth n := by
  rw [setWidth_extractLsb'_eq_and_lowMask, BitVec.ushiftRight_zero]

/-- A mask in place leaves the slice it covers, in its place. -/
theorem and_shiftLeft_lowMask {n : Nat} (x : BitVec n) (k m : Nat) :
    x &&& BitVec.ofNat n (2 ^ m - 1) <<< k = (x.extractLsb' k m).setWidth n <<< k := by
  ext i hi
  rcases Nat.lt_or_ge i k with hlow | (hhigh : k ≤ i)
  · simp [hlow]
  · have hin : i - k < n := by omega
    simp [hi, hin, hhigh, Nat.add_sub_cancel' hhigh, BitVec.getElem_eq_testBit_toNat, Bool.and_comm,
      -BitVec.natCast_eq_ofNat]

/-- A concatenation as a number: the high part moved up, and the low part. -/
theorem toNat_append_eq_add {n m : Nat} (x : BitVec n) (y : BitVec m) : (x ++ y).toNat = x.toNat * 2 ^ m + y.toNat := by
  rw [BitVec.toNat_append, ← Nat.shiftLeft_add_eq_or_of_lt y.isLt, Nat.shiftLeft_eq]

/-! ## `pack` and `unpack` -/

/-- `unpack` undoes `pack` (30_encoding R50): each slice of the word sees its own field and none of the others. -/
theorem unpack_pack (h : Header) : unpack (pack h) = h := by
  rw [unpack, pack]
  simp [BitVec.extractLsb'_or, extractLsb'_shiftLeft_of_above, extractLsb'_setWidth_of_above, extractLsb'_shiftLeft_of_ge,
    extractLsb'_setWidth, BitVec.shiftLeft_eq_zero]

/-- A word is the concatenation of its six fields. -/
theorem append_unpack (w : Word) :
    (unpack w).priority ++ (unpack w).source ++ (unpack w).destination ++ (unpack w).destPort ++ (unpack w).sourcePort
      ++ (unpack w).reserved = w := by
  have h25 : w.extractLsb' 30 2 ++ w.extractLsb' 25 5 = w.extractLsb' 25 7 :=
    BitVec.extractLsb'_append_extractLsb'_eq_extractLsb' rfl
  have h20 : w.extractLsb' 25 7 ++ w.extractLsb' 20 5 = w.extractLsb' 20 12 :=
    BitVec.extractLsb'_append_extractLsb'_eq_extractLsb' rfl
  have h14 : w.extractLsb' 20 12 ++ w.extractLsb' 14 6 = w.extractLsb' 14 18 :=
    BitVec.extractLsb'_append_extractLsb'_eq_extractLsb' rfl
  have h8 : w.extractLsb' 14 18 ++ w.extractLsb' 8 6 = w.extractLsb' 8 24 :=
    BitVec.extractLsb'_append_extractLsb'_eq_extractLsb' rfl
  have h0 : w.extractLsb' 8 24 ++ w.extractLsb' 0 8 = w.extractLsb' 0 32 :=
    BitVec.extractLsb'_append_extractLsb'_eq_extractLsb' rfl
  simp only [unpack, h25, h20, h14, h8, h0, BitVec.extractLsb'_eq_self]

/-- `pack` as a concatenation (30_encoding R49). -/
theorem pack_eq_append (h : Header) :
    pack h = h.priority ++ h.source ++ h.destination ++ h.destPort ++ h.sourcePort ++ h.reserved := by
  have happend := append_unpack (pack h)
  rw [unpack_pack] at happend
  exact happend.symm

/-- `pack` undoes `unpack` (30_encoding R50). -/
theorem pack_unpack (w : Word) : pack (unpack w) = w := by
  rw [pack_eq_append, append_unpack]

/-- Settles O6: the concatenation, whose value is the sum of its parts' in their places. -/
theorem packIsConcatenation : Obligations.PackIsConcatenation := by
  intro h
  refine ⟨pack_eq_append h, rfl, ?_⟩
  rw [pack_eq_append]
  simp only [toNat_append_eq_add]
  ring

/-- Settles O7: each shift-and-mask form is that of its slice. -/
theorem unpackSlicesByBitWidth : Obligations.UnpackSlicesByBitWidth := by
  refine ⟨fun w => ⟨rfl, ?_, ?_, ?_, ?_, ?_, ?_, pack_unpack w⟩, unpack_pack⟩
  · exact setWidth_extractLsb'_eq_and_lowMask w 30 2
  · exact setWidth_extractLsb'_eq_and_lowMask w 25 5
  · exact setWidth_extractLsb'_eq_and_lowMask w 20 5
  · exact setWidth_extractLsb'_eq_and_lowMask w 14 6
  · exact setWidth_extractLsb'_eq_and_lowMask w 8 6
  · exact (and_lowMask w 8).symm

/-! ## The masks in place -/

/-- The masks of 30_encoding R46 are those of the fields' widths, moved to the fields' places. -/
theorem fieldMasks_eq :
    fieldMasks =
      [BitVec.ofNat 32 (2 ^ 2 - 1) <<< 30, BitVec.ofNat 32 (2 ^ 5 - 1) <<< 25, BitVec.ofNat 32 (2 ^ 5 - 1) <<< 20,
       BitVec.ofNat 32 (2 ^ 6 - 1) <<< 14, BitVec.ofNat 32 (2 ^ 6 - 1) <<< 8, BitVec.ofNat 32 (2 ^ 8 - 1)] := by
  decide

/-- Each mask leaves of a word the field it covers, in its place. -/
theorem map_and_fieldMasks (w : Word) :
    fieldMasks.map (fun m => w &&& m) =
      [(unpack w).priority.setWidth 32 <<< 30, (unpack w).source.setWidth 32 <<< 25,
       (unpack w).destination.setWidth 32 <<< 20, (unpack w).destPort.setWidth 32 <<< 14,
       (unpack w).sourcePort.setWidth 32 <<< 8, (unpack w).reserved.setWidth 32] := by
  rw [fieldMasks_eq]
  simp only [List.map_cons, List.map_nil, and_shiftLeft_lowMask, and_lowMask]
  rfl

/-- Settles O5: the clauses about the six constants are evaluated; what a mask leaves is the field `unpack` finds. -/
theorem fieldMasksDisjointAndCover : Obligations.FieldMasksDisjointAndCover := by
  refine ⟨by decide, fun h => ?_, by decide, by decide⟩
  rw [map_and_fieldMasks, unpack_pack]

end Sys2Proof.Proofs

/-!
SUPPORT. The wire bytes of a header (30_encoding R48, R52) and the host's frame around them (R64).
-/

namespace Sys2Proof.Proofs

open Sys2Proof Sys2Proof.Machine

/-- `from_wire` undoes `to_wire` (30_encoding R52). -/
theorem fromWire_toWire (w : Word) : fromWire (toWire w) = w := by
  rw [fromWire_eq_append, append_toWire]

/-- Settles O10. -/
theorem fromWireIsReversedConcatenation : Obligations.FromWireIsReversedConcatenation :=
  ⟨fun b => ⟨fromWire_eq_append b, rfl, toWire_fromWire b⟩, fromWire_toWire⟩

/-- The wire bytes of a word by its fields (30_encoding R48), the two fields that straddle a byte boundary cut there. -/
theorem toWire_eq_append_unpack (w : Word) :
    toWire w =
      { b0 := (unpack w).reserved
        b1 := (unpack w).destPort.extractLsb' 0 2 ++ (unpack w).sourcePort
        b2 := (unpack w).destination.extractLsb' 0 4 ++ (unpack w).destPort.extractLsb' 2 4
        b3 := (unpack w).priority ++ (unpack w).source ++ (unpack w).destination.extractLsb' 4 1 } := by
  have h8 : w.extractLsb' 14 2 ++ w.extractLsb' 8 6 = w.extractLsb' 8 8 :=
    BitVec.extractLsb'_append_extractLsb'_eq_extractLsb' rfl
  have h16 : w.extractLsb' 20 4 ++ w.extractLsb' 16 4 = w.extractLsb' 16 8 :=
    BitVec.extractLsb'_append_extractLsb'_eq_extractLsb' rfl
  have h25 : w.extractLsb' 30 2 ++ w.extractLsb' 25 5 = w.extractLsb' 25 7 :=
    BitVec.extractLsb'_append_extractLsb'_eq_extractLsb' rfl
  have h24 : w.extractLsb' 25 7 ++ w.extractLsb' 24 1 = w.extractLsb' 24 8 :=
    BitVec.extractLsb'_append_extractLsb'_eq_extractLsb' rfl
  simp [toWire_eq, unpack, extractLsb'_extractLsb', h8, h16, h25, h24]

/-- Settles O12: the wire map of a word, at the word of a header. -/
theorem wireMapOfFields : Obligations.WireMapOfFields := by
  refine ⟨fun w => rfl, fun h => ?_⟩
  rw [toWire_eq_append_unpack, unpack_pack]

/-- Wire byte 0 of a header is its reserved field. -/
theorem toWire_pack_b0 (h : Header) : (toWire (pack h)).b0 = h.reserved := by
  rw [toWire_eq_append_unpack, unpack_pack]

/-- Settles O37: the bytes are the header's own wire bytes, from which DECODE reads the header back. -/
theorem decodeAcceptsEveryHeader : Obligations.DecodeAcceptsEveryHeader := by
  intro h
  refine ⟨(toWire (pack h)).b0, (toWire (pack h)).b1, (toWire (pack h)).b2, (toWire (pack h)).b3,
    fun s => ⟨?_, toWire_pack_b0 h⟩⟩
  have hres : decodeResult ⟨toWire (pack h), 4#3⟩ = .ok h := by
    rw [decodeResult_of_len_eq rfl, fromWire_toWire, unpack_pack]
  rw [exec_decode, runDecoder_spec, hres]

/-- Settles O53: every part of the frame is found where FRAME put it. -/
theorem unframeOfFrame : Obligations.UnframeOfFrame := fun _ _ _ => rfl

end Sys2Proof.Proofs

/-!
SUPPORT. The rows of the opcode table (30_encoding R57): operands and fields, reading a word by a row or by the table alone, and
a word placed as the host's next operation.
-/

namespace Sys2Proof.Proofs

open Sys2Proof Sys2Proof.Machine

/-! ## The ENCODE row's words -/

/-- The ENCODE row's mask and match (30_encoding R57) ask for a zero reserved field. -/
theorem and_rowMask_encoder_iff (w : Word) : w &&& rowMask .encoder = rowMatch .encoder ↔ (unpack w).reserved = 0#8 := by
  have hmask : w &&& rowMask .encoder = (unpack w).reserved.setWidth 32 := and_lowMask w 8
  rw [hmask, ← BitVec.toNat_inj, ← BitVec.toNat_inj, BitVec.toNat_setWidth_of_le (by decide)]
  rfl

/-! ## Operands and fields -/

/-- The operands of a header's fields are a valid tuple: each has the width of its field (30_encoding R54). -/
theorem tupleOf_valid (h : Header) : (tupleOf h).Valid := by
  refine ⟨?_, ?_, ?_, ?_, ?_⟩ <;> simp only [tupleOf, BitVec.toNat_setWidth] <;> omega

/-- ENCODE packs the fields it is handed back, and a reserved field of zero (30_encoding R54, R58). -/
theorem fieldsOf_tupleOf {h : Header} (hr : h.reserved = 0x00#8) : fieldsOf (tupleOf h) = h := by
  obtain ⟨p, s, d, t, u, r⟩ := h
  cases hr
  simp [fieldsOf, tupleOf]

/-! ## Reading a word by a named row -/

/-- The ENCODE of a tuple, its operands on the pins in positional order (40_encode R65). -/
def encodeOf (t : RoutingTuple) : Instr := .encode t.priority t.source t.destination t.destPort t.sourcePort

theorem encodeOfWord_eq (w : Word) : encodeOfWord w = encodeOf (tupleOf (unpack w)) := rfl

theorem encodeWord_encodeOf (t : RoutingTuple) : encodeWord (encodeOf t) = pack (fieldsOf t) := rfl

theorem encodeOfWord_wellFormed (w : Word) : (encodeOfWord w).WellFormed := tupleOf_valid (unpack w)

theorem decodeOfWord_wellFormed (w : Word) : (decodeOfWord w).WellFormed := rfl

theorem encodeWord_encodeOfWord {w : Word} (hr : (unpack w).reserved = 0#8) : encodeWord (encodeOfWord w) = w := by
  rw [encodeOfWord_eq, encodeWord_encodeOf, fieldsOf_tupleOf hr, pack_unpack]

theorem encodeWord_decodeOfWord (w : Word) : encodeWord (decodeOfWord w) = w := fromWire_toWire w

/-- The ENCODE row reads a word by its fields, and refuses one whose reserved field is not zero. -/
theorem decodeRow_encoder (w : Word) :
    decodeRow .encoder w =
      if (unpack w).reserved = 0#8 then .ok (encodeOfWord w) else .error (.reservedNotZero (unpack w).reserved) :=
  if_congr (and_rowMask_encoder_iff w) rfl rfl

/-- The DECODE row reads every word. -/
theorem decodeRow_decoder (w : Word) : decodeRow .decoder w = .ok (decodeOfWord w) := rfl

/-- The ENCODE of a valid tuple is read back from its header word: its operands fit their fields. -/
theorem decodeRow_encodeWord_encodeOf {t : RoutingTuple} (h : t.Valid) :
    decodeRow .encoder (encodeWord (encodeOf t)) = .ok (encodeOf t) := by
  rw [encodeWord_encodeOf, decodeRow_encoder, encodeOfWord_eq, unpack_pack, if_pos (fieldsOf_reserved t), tupleOf_fieldsOf h]

/-- A DECODE of four bytes is read back from its header word. -/
theorem decodeRow_encodeWord_decode (b0 b1 b2 b3 : Byte) :
    decodeRow .decoder (encodeWord (.decode b0 b1 b2 b3 4#3)) = .ok (.decode b0 b1 b2 b3 4#3) := by
  rw [encodeWord, decodeRow_decoder, decodeOfWord, toWire_fromWire]

/-- What a row reads, and from which words. -/
theorem decodeRow_eq_ok_cases {dp : Datapath} {w : Word} {i : Instr} (h : decodeRow dp w = .ok i) :
    (dp = .encoder ∧ (unpack w).reserved = 0#8 ∧ i = encodeOfWord w) ∨ (dp = .decoder ∧ i = decodeOfWord w) := by
  cases dp with
  | encoder =>
    rw [decodeRow_encoder] at h
    split at h
    · exact .inl ⟨rfl, ‹_›, (Except.ok.inj h).symm⟩
    · cases h
  | decoder =>
    rw [decodeRow_decoder] at h
    exact .inr ⟨rfl, (Except.ok.inj h).symm⟩

/-- Settles O15, operation by operation and row by row. -/
theorem rowReadsBackEveryWellFormedWord : Obligations.RowReadsBackEveryWellFormedWord := by
  constructor
  · intro i hi
    cases i with
    | encode p so d t u => exact decodeRow_encodeWord_encodeOf (t := ⟨p, so, d, t, u⟩) hi
    | decode b0 b1 b2 b3 n =>
      obtain rfl : n = 4#3 := hi
      exact decodeRow_encodeWord_decode b0 b1 b2 b3
  · intro dp w i hread
    rcases decodeRow_eq_ok_cases hread with ⟨rfl, hr, rfl⟩ | ⟨rfl, rfl⟩
    · exact ⟨rfl, encodeOfWord_wellFormed w, encodeWord_encodeOfWord hr⟩
    · exact ⟨rfl, decodeOfWord_wellFormed w, encodeWord_decodeOfWord w⟩

/-! ## Reading a word by the table alone -/

/-- The table's choice between its two overlapping rows (log 4). -/
theorem decodeWord_eq_ite (w : Word) :
    decodeWord w = if (unpack w).reserved = 0#8 then encodeOfWord w else decodeOfWord w :=
  if_congr (and_rowMask_encoder_iff w) rfl rfl

theorem decodeWord_wellFormed (w : Word) : (decodeWord w).WellFormed := by
  rw [decodeWord_eq_ite]
  split
  · exact encodeOfWord_wellFormed w
  · exact decodeOfWord_wellFormed w

/-- The wire bytes of a word are read as that word. -/
theorem decodeBytes_wireBytes_toWire (w : Word) : decodeBytes (wireBytes (toWire w)) = .ok (decodeWord w) := by
  have hbytes (b : WireHeader) : decodeBytes (wireBytes b) = .ok (decodeWord (fromWire b)) := rfl
  rw [hbytes, fromWire_toWire]

/-- A word of at most 32 bits is read as the header word it is, filled up with zeros; a longer one is refused. -/
theorem decodeTableWord_eq_ite (nbits w : Nat) :
    decodeTableWord nbits w = if nbits ≤ 32 then some (decodeWord (BitVec.ofNat 32 (w % 2 ^ nbits))) else none := by
  rw [decodeTableWord, decodeBytes_wireBytes_toWire]
  rfl

/-- All 32 bits of a header word given, the table reads that word. -/
theorem decodeTableWord_toNat (w : Word) : decodeTableWord 32 w.toNat = some (decodeWord w) := by
  rw [decodeTableWord_eq_ite, if_pos le_rfl, Nat.mod_eq_of_lt w.isLt, BitVec.ofNat_toNat, BitVec.setWidth_eq]

/-- Settles O16, on either side of the table's choice. -/
theorem tableWordReadBySpecificRow : Obligations.TableWordReadBySpecificRow := by
  intro w
  rw [decodeTableWord_toNat, decodeWord_eq_ite]
  exact ⟨fun hr => congrArg some (if_pos hr), fun hr => congrArg some (if_neg hr)⟩

/-- Settles O17: four words evaluated. -/
theorem vectorWordsDecode : Obligations.VectorWordsDecode := ⟨by decide, by decide, by decide, by decide⟩

/-! ## A placed word -/

/-- A well-formed operation's request presents it, whatever the decoder's pins held. -/
theorem present_requestOf_of_wellFormed (held : ReceivedHeader) {i : Instr} (hi : i.WellFormed) :
    present held (requestOf i) = .ok i := by
  cases i with
  | encode p so d t u => exact present_requestOf_encode held p so d t u
  | decode b0 b1 b2 b3 n =>
    obtain rfl : n = 4#3 := hi
    exact present_requestOf_decode (.inl le_rfl)

theorem decodeTableWord_wellFormed {nbits w : Nat} {i : Instr} (h : decodeTableWord nbits w = some i) : i.WellFormed := by
  rw [decodeTableWord_eq_ite] at h
  split at h
  · cases h
    exact decodeWord_wellFormed _
  · cases h

theorem withFetchWord_of_decodeTableWord {nbits w : Nat} {i : Instr} (s : State) (h : decodeTableWord nbits w = some i) :
    s.withFetchWord nbits w = { s with pending := requestOf i :: s.pending } := by
  rw [State.withFetchWord, h]

/-- Settles O20: what the table reads is well-formed, so its request presents it, and the step takes that request off again. -/
theorem placedTableWordRuns : Obligations.PlacedTableWordRuns := by
  intro s nbits w i hread
  rw [withFetchWord_of_decodeTableWord s hread]
  exact step_of_present_ok rfl (present_requestOf_of_wellFormed s.decIn (decodeTableWord_wellFormed hread))

/-! ## What ENCODE produces -/

/-- Where ENCODE ends without error it produces the packed fields, under either policy. -/
theorem eq_toWire_pack_of_encodeResult_ok {policy : OorPolicy} {t : RoutingTuple} {b : WireHeader}
    (h : encodeResult policy t = .ok b) : b = toWire (pack (fieldsOf t)) := by
  rcases encodeResult_cases policy t with ⟨hres, -⟩ | ⟨hres, -⟩ <;> rw [hres] at h <;> cases h
  rfl

theorem encodeResult_of_valid (policy : OorPolicy) {t : RoutingTuple} (h : t.Valid) :
    encodeResult policy t = .ok (toWire (pack (fieldsOf t))) := by
  rcases encodeResult_cases policy t with ⟨-, -, hoor⟩ | ⟨hres, -⟩
  · exact absurd ((oorVector_eq_zero_iff t).2 h) hoor
  · exact hres

/-- Settles O28: what is produced is the word of fields whose reserved is zero. -/
theorem producedHeaderHasReservedZero : Obligations.ProducedHeaderHasReservedZero := by
  intro policy t b hres
  obtain rfl := eq_toWire_pack_of_encodeResult_ok hres
  refine ⟨by rw [toWire_pack_b0, fieldsOf_reserved], (and_rowMask_encoder_iff _).2 ?_⟩
  rw [fromWire_toWire, unpack_pack, fieldsOf_reserved]

/-- A tuple that ENCODE maps to a word's bytes has that word's fields. -/
theorem fieldsOf_eq_unpack_of_encodeResult_ok {policy : OorPolicy} {t : RoutingTuple} {w : Word}
    (h : encodeResult policy t = .ok (toWire w)) : fieldsOf t = unpack w := by
  have hword := congrArg fromWire (eq_toWire_pack_of_encodeResult_ok h)
  rw [fromWire_toWire, fromWire_toWire] at hword
  rw [hword, unpack_pack]

/-- Settles O29: the one tuple is that of the word's fields. -/
theorem encodeImageIsReservedZeroWords : Obligations.EncodeImageIsReservedZeroWords := by
  intro w
  constructor
  · intro hr
    have hfields : fieldsOf (tupleOf (unpack w)) = unpack w := fieldsOf_tupleOf hr
    refine ⟨tupleOf (unpack w), ⟨tupleOf_valid _, ?_⟩, ?_⟩
    · rw [encodeResult_of_valid _ (tupleOf_valid _), hfields, pack_unpack]
    · rintro t ⟨hvalid, hres⟩
      rw [← fieldsOf_eq_unpack_of_encodeResult_ok hres, tupleOf_fieldsOf hvalid]
  · rintro ⟨t, ⟨-, hres⟩, -⟩
    obtain ⟨hbyte, -⟩ := producedHeaderHasReservedZero _ _ _ hres
    exact hbyte

end Sys2Proof.Proofs

/-!
SUPPORT. The string method (30_encoding R53) step by step: numerals side by side are the numeral of the concatenation, a piece of
a word's numeral is the numeral of a group, and a numeral reads as its value.
-/

namespace Sys2Proof.Proofs

open Sys2Proof Sys2Proof.Machine

theorem length_numeral {w : Nat} (v : BitVec w) : (numeral v).length = w := by simp [numeral]

theorem getElem_numeral {w k : Nat} (v : BitVec w) (hk : k < (numeral v).length) :
    (numeral v)[k] = v.getLsbD (w - 1 - k) := by
  simp [numeral]

/-- Two numerals side by side are the numeral of the concatenation. -/
theorem numeral_append {n m : Nat} (x : BitVec n) (y : BitVec m) : numeral x ++ numeral y = numeral (x ++ y) := by
  refine List.ext_getElem (by simp [length_numeral]) fun k hk _ => ?_
  rw [List.length_append, length_numeral, length_numeral] at hk
  rw [getElem_numeral, BitVec.getLsbD_append]
  rcases Nat.lt_or_ge k n with hx | hy
  · have hplace : n + m - 1 - k - m = n - 1 - k := by omega
    rw [List.getElem_append_left (by rwa [length_numeral]), if_neg (by omega), getElem_numeral, hplace]
  · have hplace : n + m - 1 - k = m - 1 - (k - n) := by omega
    rw [List.getElem_append_right (by rwa [length_numeral]), if_pos (by omega), getElem_numeral, length_numeral, hplace]

/-- A header's logical string is the numeral of its word (30_encoding R45). -/
theorem headerString_eq_numeral_pack (h : Header) : headerString h = numeral (pack h) := by
  simp only [headerString, numeral_append, pack_eq_append]

/-- Piece `g` of a word's numeral is the numeral of group `g` (30_encoding R47). -/
theorem piece_numeral (w : Word) (g : Fin 4) : piece (numeral w) g.val = numeral (group w g) := by
  have hg := g.isLt
  refine List.ext_getElem (by simp [piece, length_numeral]; omega) fun k hk hk' => ?_
  rw [length_numeral] at hk'
  have hplace : 32 - 1 - (8 * g.val + k) = 24 - 8 * g.val + (8 - 1 - k) := by omega
  have hslice : 8 - 1 - k < 8 := by omega
  simp only [piece, List.getElem_take, List.getElem_drop, getElem_numeral, group, BitVec.getLsbD_extractLsb', hslice,
    decide_true, Bool.true_and, hplace]

/-- One more digit doubles what a numeral reads as and adds the digit. -/
theorem readNumeral_concat (digits : List Bool) (d : Bool) :
    readNumeral (digits ++ [d]) = 2 * readNumeral digits + d.toNat := by
  simp [readNumeral]

/-- The first `k` digits of a numeral read as the value's upper `k` bits. -/
theorem readNumeral_take_numeral {w : Nat} (v : BitVec w) {k : Nat} (hk : k ≤ w) :
    readNumeral ((numeral v).take k) = v.toNat >>> (w - k) := by
  induction k with
  | zero => simp [readNumeral, Nat.shiftRight_eq_div_pow, Nat.div_eq_of_lt v.isLt]
  | succ k ih =>
    have hlen : k < (numeral v).length := by rw [length_numeral]; omega
    have hsplit : w - k = w - (k + 1) + 1 := by omega
    have hplace : w - 1 - k = w - (k + 1) := by omega
    have hread : readNumeral ((numeral v).take k) = v.toNat >>> (w - (k + 1)) / 2 := by
      rw [ih (by omega), hsplit, Nat.shiftRight_succ]
    have hdigit : (v.getLsbD (w - (k + 1))).toNat = v.toNat >>> (w - (k + 1)) % 2 := by
      rw [← BitVec.testBit_toNat, Nat.toNat_testBit, Nat.shiftRight_eq_div_pow]
    rw [List.take_succ_eq_append_getElem hlen, readNumeral_concat, hread, getElem_numeral, hplace, hdigit]
    omega

/-- A numeral reads as its value. -/
theorem readNumeral_numeral {w : Nat} (v : BitVec w) : readNumeral (numeral v) = v.toNat := by
  simpa [List.take_of_length_le (length_numeral v).le] using readNumeral_take_numeral v le_rfl

/-- Settles O13: pieces 3 to 0 of the string read as groups 3 to 0 of the word, which are the wire bytes. -/
theorem stringMethodGivesTheSameBytes : Obligations.StringMethodGivesTheSameBytes := by
  intro h
  have hpiece (g : Fin 4) : readNumeral (piece (headerString h) g.val) = (group (pack h) g).toNat := by
    rw [headerString_eq_numeral_pack, piece_numeral, readNumeral_numeral]
  calc stringMethod h
    _ = ([3, 2, 1, 0] : List (Fin 4)).map fun g => readNumeral (piece (headerString h) g.val) := rfl
    _ = ([3, 2, 1, 0] : List (Fin 4)).map fun g => (group (pack h) g).toNat := by simp only [hpiece]
    _ = (wireBytes (toWire (pack h))).map BitVec.toNat := rfl

end Sys2Proof.Proofs

/-!
SUPPORT. One evaluation of the encoder by the result of its function: the outputs of a header (40_encode R66) and of an error
(R70), the operands that reach a header (R73), and the fields they are cut to (R68).
-/

namespace Sys2Proof.Proofs

open Sys2Proof Sys2Proof.Machine

/-! ## The result under each policy -/

theorem encodeResult_fault_of_not_valid {t : RoutingTuple} (h : ¬ t.Valid) :
    encodeResult .fault t = .error (.encodeRange (oorVector t)) := by
  rcases encodeResult_cases .fault t with ⟨hres, -⟩ | ⟨-, hmask | hoor⟩
  · exact hres
  · cases hmask
  · exact absurd ((oorVector_eq_zero_iff t).1 hoor) h

theorem encodeResult_mask (t : RoutingTuple) : encodeResult .mask t = .ok (toWire (pack (fieldsOf t))) := by
  rcases encodeResult_cases .mask t with ⟨-, hfault, -⟩ | ⟨hres, -⟩
  · cases hfault
  · exact hres

/-- Settles O26: on a valid tuple there is a header, on any other the error of its out-of-range vector. -/
theorem encodeFailsExactlyOnInvalidTuple : Obligations.EncodeFailsExactlyOnInvalidTuple := by
  intro t
  refine ⟨⟨fun ⟨e, herr⟩ hvalid => ?_, fun hbad => ⟨_, encodeResult_fault_of_not_valid hbad⟩⟩, fun e herr => ?_,
    ⟨_, encodeResult_mask t⟩⟩
  · rw [encodeResult_of_valid _ hvalid] at herr
    cases herr
  · rcases encodeResult_cases .fault t with ⟨hres, -, hoor⟩ | ⟨hres, -⟩ <;> rw [hres] at herr <;> cases herr
    exact ⟨_, rfl, hoor⟩

/-! ## The pins by the result -/

section Run

variable (s : State) {policy : OorPolicy} {t : RoutingTuple}

/-- The encoder's outputs where its function answers a header (40_encode R66). -/
theorem runEncoder_of_encodeResult_ok {b : WireHeader} (h : encodeResult policy t = .ok b) :
    s.runEncoder policy t = { s with encIn := t, encOut := ⟨b, 0#1, 0#5⟩ } := by
  rw [runEncoder_spec, h]

/-- The encoder's outputs where its function answers an error (40_encode R70). -/
theorem runEncoder_of_encodeResult_error {e : CodecError} (h : encodeResult policy t = .error e) :
    s.runEncoder policy t = { s with encIn := t, encOut := ⟨⟨0#8, 0#8, 0#8, 0#8⟩, 1#1, oorVector t⟩ } := by
  rw [runEncoder_spec, h]

end Run

/-- Settles O27, by what one evaluation of the encoder leaves on the pins. -/
theorem encodeChangesOnlyTheEncoder : Obligations.EncodeChangesOnlyTheEncoder := by
  intro p so d t u s s' hexec
  rw [exec_encode] at hexec
  cases hexec
  exact ⟨runEncoder_encIn .., runEncoder_decIn .., runEncoder_decOut .., runEncoder_pending ..⟩

/-! ## The fields ENCODE packs -/

/-- The fields are the low bits of the operands, as slices (40_encode R66). -/
theorem fieldsOf_eq_slices (t : RoutingTuple) :
    fieldsOf t = ⟨t.priority.extractLsb' 0 2, t.source.extractLsb' 0 5, t.destination.extractLsb' 0 5,
      t.destPort.extractLsb' 0 6, t.sourcePort.extractLsb' 0 6, 0x00#8⟩ := by
  have hslice {w : Nat} (v : Operand) (hw : w ≤ 8) : v.setWidth w = v.extractLsb' 0 w := BitVec.setWidth_eq_extractLsb' hw
  simp only [fieldsOf, hslice _ (by decide : 2 ≤ 8), hslice _ (by decide : 5 ≤ 8), hslice _ (by decide : 6 ≤ 8)]

/-- Settles O22: a valid tuple has its header under either policy, and this hardware's is one of them. -/
theorem encodeOfValidTuple : Obligations.EncodeOfValidTuple := by
  intro p so d t u s hvalid
  have hrun (policy : OorPolicy) := runEncoder_of_encodeResult_ok s (encodeResult_of_valid policy hvalid)
  simp only [fieldsOf_eq_slices] at hrun
  exact ⟨by rw [exec_encode, hrun], hrun⟩

/-- Settles O25: the slices are the wire map of the fields, the shifts the per-byte equations over them. -/
theorem encodePerByteEquations : Obligations.EncodePerByteEquations := by
  intro policy t b hres
  obtain ⟨-, hmap⟩ := wireMapOfFields
  have hslices := hmap (fieldsOf t)
  have hshifts := toWire_pack_of_reserved_zero (fieldsOf_reserved t)
  rw [← eq_toWire_pack_of_encodeResult_ok hres, fieldsOf_eq_slices] at hslices hshifts
  exact ⟨congrArg WireHeader.b3 hslices, congrArg WireHeader.b3 hshifts, congrArg WireHeader.b2 hslices,
    congrArg WireHeader.b2 hshifts, congrArg WireHeader.b1 hslices, congrArg WireHeader.b1 hshifts,
    congrArg WireHeader.b0 hslices⟩

end Sys2Proof.Proofs

/-!
SUPPORT. Operands that do not fit their fields: the bits of `enc_oor` under `FAULT` (40_encode R67) and the residues under
`MASK` (R68).
-/

namespace Sys2Proof.Proofs

open Sys2Proof Sys2Proof.Machine

/-! ## The out-of-range vector bit by bit -/

/-- A single out-of-range bit stands at its own place only. -/
theorem getLsbD_oorBit {k : Nat} (hk : k < 5) (i : Nat) (bad : Bool) :
    (oorBit i bad).getLsbD k = (decide (i = k) && bad) := by
  cases bad with
  | false => simp [oorBit]
  | true =>
    have hone : oorBit i true = BitVec.twoPow 5 i := rfl
    rw [hone, BitVec.getLsbD_twoPow, Bool.and_true]
    rcases eq_or_ne i k with rfl | hne <;> simp [*]

/-- Each bit of the out-of-range vector is the range check of its own operand (40_encode R67). -/
theorem getLsbD_oorVector_iff (t : RoutingTuple) :
    ((oorVector t).getLsbD 0 = true ↔ 4 ≤ t.priority.toNat) ∧ ((oorVector t).getLsbD 1 = true ↔ 32 ≤ t.source.toNat) ∧
    ((oorVector t).getLsbD 2 = true ↔ 32 ≤ t.destination.toNat) ∧ ((oorVector t).getLsbD 3 = true ↔ 64 ≤ t.destPort.toNat) ∧
    ((oorVector t).getLsbD 4 = true ↔ 64 ≤ t.sourcePort.toNat) := by
  simp only [oorVector, BitVec.getLsbD_or, getLsbD_oorBit, Nat.reduceLT]
  simp [outOfRange_iff, Config.priW, Config.srcW, Config.dstW, Config.dportW, Config.sportW]

/-- An operand is out of range exactly when one of its upper bits is set (40_encode R67). -/
theorem le_toNat_iff_upperBits {w : Nat} (hw : w ≤ 8) (v : Operand) :
    2 ^ w ≤ v.toNat ↔ v.extractLsb' w (8 - w) ≠ 0#(8 - w) := by
  rw [ne_eq, extractLsb'_high_eq_zero_iff v hw, Nat.not_lt]

/-- Settles O23: the vector recorded is that of the range checks, and it is not zero since the tuple is not valid. -/
theorem encodeOutOfRangeEndsInError : Obligations.EncodeOutOfRangeEndsInError := by
  intro p so d t u s hbad
  have hinvalid : ¬ RoutingTuple.Valid ⟨p, so, d, t, u⟩ := by
    simp only [RoutingTuple.Valid]
    omega
  have hres := encodeResult_fault_of_not_valid hinvalid
  obtain ⟨hp, hso, hd, ht, hu⟩ := getLsbD_oorVector_iff ⟨p, so, d, t, u⟩
  exact ⟨oorVector ⟨p, so, d, t, u⟩, mt (oorVector_eq_zero_iff _).1 hinvalid, hp, hso, hd, ht, hu,
    le_toNat_iff_upperBits (w := 2) (by decide) p, le_toNat_iff_upperBits (w := 5) (by decide) so,
    le_toNat_iff_upperBits (w := 5) (by decide) d, le_toNat_iff_upperBits (w := 6) (by decide) t,
    le_toNat_iff_upperBits (w := 6) (by decide) u, hres, by rw [exec_encode, runEncoder_of_encodeResult_error s hres]⟩

/-! ## Residues -/

/-- A value reduced modulo `2 ^ w` has the same `w` low bits. -/
theorem setWidth_eq_of_toNat_eq_mod {n w : Nat} {v x : BitVec n} (h : v.toNat = x.toNat % 2 ^ w) :
    v.setWidth w = x.setWidth w := by
  rw [← BitVec.toNat_inj, BitVec.toNat_setWidth, BitVec.toNat_setWidth, h, Nat.mod_mod]

/-- The header word of any operands as the sum of their residues in their places (40_encode R68). -/
theorem toNat_pack_fieldsOf (t : RoutingTuple) :
    (pack (fieldsOf t)).toNat =
      t.priority.toNat % 2 ^ 2 * 2 ^ 30 + t.source.toNat % 2 ^ 5 * 2 ^ 25 + t.destination.toNat % 2 ^ 5 * 2 ^ 20
        + t.destPort.toNat % 2 ^ 6 * 2 ^ 14 + t.sourcePort.toNat % 2 ^ 6 * 2 ^ 8 := by
  obtain ⟨-, -, hsum⟩ := packIsConcatenation (fieldsOf t)
  simpa only [fieldsOf, BitVec.toNat_setWidth, Config.encRsv, BitVec.toNat_ofNat, Nat.zero_mod, Nat.add_zero] using hsum

/-- Settles O24: the reduced operands are a valid tuple with the same fields, so `FAULT` answers them the same header. -/
theorem maskPolicyReducesEveryOperand : Obligations.MaskPolicyReducesEveryOperand := by
  intro t s
  have hrun := runEncoder_of_encodeResult_ok s (encodeResult_mask t)
  refine ⟨by rw [hrun, fieldsOf_eq_slices], by rw [hrun, loadLittle_toWire, toNat_pack_fieldsOf], ?_⟩
  intro v hp hs hd ht hu
  have hvalid : v.Valid := by
    refine ⟨?_, ?_, ?_, ?_, ?_⟩ <;> omega
  have hfields : fieldsOf v = fieldsOf t := by
    rw [fieldsOf, setWidth_eq_of_toNat_eq_mod hp, setWidth_eq_of_toNat_eq_mod hs, setWidth_eq_of_toNat_eq_mod hd,
      setWidth_eq_of_toNat_eq_mod ht, setWidth_eq_of_toNat_eq_mod hu, fieldsOf]
  rw [hrun, runEncoder_of_encodeResult_ok s (encodeResult_of_valid .fault hvalid), hfields]

end Sys2Proof.Proofs

/-!
SUPPORT. The host's use of ENCODE: the destination in a frame (40_encode R78, 20_memory R37) and the reply header (40_encode R77).
-/

namespace Sys2Proof.Proofs

open Sys2Proof Sys2Proof.Machine

/-- The fields of the received word are those ENCODE packed. -/
theorem unpack_fromWire_of_encodeResult_ok {policy : OorPolicy} {t : RoutingTuple} {b : WireHeader}
    (h : encodeResult policy t = .ok b) : unpack (fromWire b) = fieldsOf t := by
  rw [eq_toWire_pack_of_encodeResult_ok h, fromWire_toWire, unpack_pack]

/-- The fields ENCODE packed as slices of the bytes it produced (40_encode R78, 41_decode R87). -/
theorem fieldsOf_eq_slices_of_encodeResult_ok {policy : OorPolicy} {t : RoutingTuple} {b : WireHeader}
    (h : encodeResult policy t = .ok b) :
    fieldsOf t =
      { priority    := b.b3.extractLsb' 6 2
        source      := b.b3.extractLsb' 1 5
        destination := b.b3.extractLsb' 0 1 ++ b.b2.extractLsb' 4 4
        destPort    := b.b2.extractLsb' 0 4 ++ b.b1.extractLsb' 6 2
        sourcePort  := b.b1.extractLsb' 0 6
        reserved    := b.b0 } := by
  rw [← unpack_fromWire_of_encodeResult_ok h, unpack_eq_slices_toWire, toWire_fromWire]

/-- Settles O54: both are the destination field, which holds the whole of a valid tuple's operand. -/
theorem addressByteIsDestination : Obligations.AddressByteIsDestination := by
  intro policy t b payload hvalid hres
  have hdest : (fieldsOf t).destination.setWidth 8 = t.destination :=
    congrArg RoutingTuple.destination (tupleOf_fieldsOf hvalid)
  obtain ⟨-, -, hrange, -⟩ := hvalid
  refine ⟨?_, ?_, hrange⟩
  · rw [← hdest, fieldsOf_eq_slices_of_encodeResult_ok hres]
  · rw [unpack_fromWire_of_encodeResult_ok hres, hdest]
    rfl

/-- An operand that fits its field is in the word what it is on the pin. -/
theorem setWidth_word_setWidth_of_lt {w : Nat} {v : Operand} (h : v.toNat < 2 ^ w) :
    (v.setWidth w).setWidth 32 = v.setWidth 32 := by
  rw [← BitVec.toNat_inj, BitVec.toNat_setWidth, BitVec.toNat_setWidth, Nat.mod_eq_of_lt h, BitVec.toNat_setWidth]

theorem replyTuple_valid {c : HostConfig} (hn : c.nodeId.toNat < 32) (hp : c.peerId.toNat < 32) (ha : c.appPort.toNat < 64) :
    (replyTuple c).Valid :=
  ⟨(by decide : (1#8).toNat < 4), hn, hp, ha, (by decide : (63#8).toNat < 64)⟩

/-- The reply header's word: the fixed fields make the constant, the configured ones stand at their places (40_encode R77). -/
theorem pack_fieldsOf_replyTuple {c : HostConfig} (hn : c.nodeId.toNat < 32) (hp : c.peerId.toNat < 32)
    (ha : c.appPort.toNat < 64) :
    pack (fieldsOf (replyTuple c)) = 0x40003F00#32 ||| (c.nodeId.setWidth 32 <<< 25) ||| (c.peerId.setWidth 32 <<< 20)
      ||| (c.appPort.setWidth 32 <<< 14) := by
  have hconst : 0x40003F00#32 = ((1#8).setWidth 2).setWidth 32 <<< 30 ||| ((63#8).setWidth 6).setWidth 32 <<< 8
      ||| Config.encRsv.setWidth 32 := by decide
  have hnode : (c.nodeId.setWidth 5).setWidth 32 = c.nodeId.setWidth 32 := setWidth_word_setWidth_of_lt hn
  have hpeer : (c.peerId.setWidth 5).setWidth 32 = c.peerId.setWidth 32 := setWidth_word_setWidth_of_lt hp
  have happ : (c.appPort.setWidth 6).setWidth 32 = c.appPort.setWidth 32 := setWidth_word_setWidth_of_lt ha
  have hfirst (a b c d e f : Word) : a ||| b ||| c ||| d ||| e ||| f = (a ||| e ||| f) ||| b ||| c ||| d := by ac_rfl
  rw [hconst, ← hnode, ← hpeer, ← happ]
  exact hfirst ..

/-- Settles O55: the reply's tuple is valid; byte 0 is its reserved field and the low bits of byte 1 its source port. -/
theorem replyHeaderOfConfiguration : Obligations.ReplyHeaderOfConfiguration := by
  refine ⟨⟨by decide, by decide⟩, fun c policy hn hp ha => ?_⟩
  have hres := encodeResult_of_valid policy (replyTuple_valid hn hp ha)
  have hslices := fieldsOf_eq_slices_of_encodeResult_ok hres
  refine ⟨rfl, _, hres, ?_, (congrArg Header.reserved hslices).symm, (congrArg Header.sourcePort hslices).symm⟩
  rw [fromWire_toWire, pack_fieldsOf_replyTuple hn hp ha]

end Sys2Proof.Proofs

/-!
SUPPORT. One evaluation of the decoder by the length (41_decode R81 to R85), and the host's inbound path (70_reset_and_hazards
R132, R133) by what DECODE answers.
-/

namespace Sys2Proof.Proofs

open Sys2Proof Sys2Proof.Machine

/-! ## The pins by the length -/

section Run

variable (s : State) {r : ReceivedHeader}

/-- The decoder's pins after four bytes (41_decode R81). -/
theorem runDecoder_of_len_eq (h : r.len = 4#3) :
    s.runDecoder r = { s with decIn := r, decOut := ⟨unpack (fromWire r.wire), 0#1⟩ } := by
  rw [runDecoder_spec, decodeResult_of_len_eq h]

/-- The decoder's pins after any other length (41_decode R84). -/
theorem runDecoder_of_len_ne (h : r.len ≠ 4#3) :
    s.runDecoder r = { s with decIn := r, decOut := ⟨Config.emptyHeader, 1#1⟩ } := by
  rw [runDecoder_spec, decodeResult_of_len_ne h]

end Run

/-- Settles O32: the word `from_wire` makes of the bytes is their concatenation, and `unpack` is its six slices. -/
theorem decodeOfFourBytes : Obligations.DecodeOfFourBytes := by
  intro b0 b1 b2 b3 s w
  have hword : fromWire ⟨b0, b1, b2, b3⟩ = w := fromWire_eq_append ⟨b0, b1, b2, b3⟩
  rw [exec_decode, runDecoder_of_len_eq s rfl, hword, unpack]

/-- Settles O34: the substitutes are constants, so no byte shows in them. -/
theorem decodeOfWrongLengthEndsInError : Obligations.DecodeOfWrongLengthEndsInError := by
  intro b0 b1 b2 b3 n s hn
  have hrun (b : WireHeader) : s.runDecoder ⟨b, n⟩ = { s with decIn := ⟨b, n⟩, decOut := ⟨Config.emptyHeader, 1#1⟩ } :=
    runDecoder_of_len_ne s hn
  refine ⟨decodeResult_of_len_ne hn, ?_, fun c0 c1 c2 c3 => ?_⟩
  · rw [exec_decode, hrun, Config.emptyHeader]
  · rw [hrun, hrun]

/-- Settles O36, by what one evaluation of the decoder leaves on the pins. -/
theorem decodeChangesOnlyTheDecoder : Obligations.DecodeChangesOnlyTheDecoder := by
  intro b0 b1 b2 b3 n s s' hexec
  rw [exec_decode] at hexec
  cases hexec
  exact ⟨runDecoder_decIn .., runDecoder_encIn .., runDecoder_encOut .., runDecoder_pending ..⟩

/-! ## The fields by the wire bytes -/

/-- Where DECODE ends without error it delivers the fields of the received word (41_decode R81). -/
theorem eq_unpack_of_decodeResult_ok {r : ReceivedHeader} {h : Header} (hres : decodeResult r = .ok h) :
    h = unpack (fromWire r.wire) := by
  rcases decodeResult_cases r with ⟨hok, -⟩ | ⟨herr, -⟩
  · exact Except.ok.inj (hres.symm.trans hok)
  · exact absurd (hres.symm.trans herr) nofun

/-- Settles O33: the fields of the received word as slices of its wire bytes, which are the bytes received. -/
theorem decodePerFieldEquations : Obligations.DecodePerFieldEquations := by
  intro r h hres
  rw [eq_unpack_of_decodeResult_ok hres, unpack_eq_slices_toWire, toWire_fromWire]

/-! ## The inbound path -/

section Dispatch

variable (policy : OorPolicy) (c : HostConfig) (parse : List Byte → Option Int) (text : List Byte) (held : WireHeader)

/-- The reply is decided by the payload alone (70_reset_and_hazards R133). -/
theorem dispatchFrame_reply (f : List Byte) :
    (dispatchFrame policy c parse text held f).2 = if parse (f.drop 5) = some getData then replyFrame policy c text else none :=
  rfl

/-- The header is the empty one where DECODE of the header region ends in an error (70_reset_and_hazards R132). -/
theorem dispatchFrame_header_of_error {f : List Byte} {e : CodecError}
    (h : decodeResult (onPins held (headerRegion f)) = .error e) :
    (dispatchFrame policy c parse text held f).1 = Config.emptyHeader := by
  simp only [dispatchFrame, h]

end Dispatch

/-- Settles O57: a short frame's header region fails DECODE's length check, and its payload is empty. -/
theorem dispatchOfShortFrame : Obligations.DispatchOfShortFrame := by
  intro policy c parse text held
  refine ⟨fun f hshort hparse => Prod.ext ?_ ?_, fun f g hpayload => ?_⟩
  · obtain ⟨-, -, -, -, hregion⟩ := frameGivesHeaderRegion f
    exact dispatchFrame_header_of_error policy c parse text held (hregion held hshort)
  · have hempty : f.drop 5 = [] := List.drop_eq_nil_of_le hshort.le
    rw [dispatchFrame_reply, hempty, if_neg hparse]
  · rw [dispatchFrame_reply, dispatchFrame_reply, hpayload]

end Sys2Proof.Proofs

/-!
SUPPORT. The two operations together (42_laws R94 to R99): what DECODE makes of the bytes ENCODE produces, and what ENCODE
makes of the fields DECODE delivers.
-/

namespace Sys2Proof.Proofs

open Sys2Proof Sys2Proof.Machine

/-! ## Decode after encode -/

/-- DECODE of a header's own wire bytes delivers the header. -/
theorem decodeResult_toWire_pack (h : Header) : decodeResult ⟨toWire (pack h), 4#3⟩ = .ok h := by
  rw [decodeResult_of_len_eq rfl, fromWire_toWire, unpack_pack]

/-- DECODE of the bytes ENCODE produced delivers the fields ENCODE packed. -/
theorem decodeResult_of_encodeResult_ok {policy : OorPolicy} {t : RoutingTuple} {b : WireHeader}
    (h : encodeResult policy t = .ok b) : decodeResult ⟨b, 4#3⟩ = .ok (fieldsOf t) := by
  rw [eq_toWire_pack_of_encodeResult_ok h, decodeResult_toWire_pack]

/-- The encoder's outputs fed to the decoder, where ENCODE ends without error (70_reset_and_hazards R136). -/
theorem loopBack_decOut_of_encodeResult_ok (s : State) {policy : OorPolicy} {t : RoutingTuple} {b : WireHeader}
    (h : encodeResult policy t = .ok b) : (s.loopBack policy t).decOut = ⟨fieldsOf t, 0#1⟩ := by
  rw [State.loopBack, runEncoder_of_encodeResult_ok s h, runDecoder_spec, decodeResult_of_encodeResult_ok h]

/-- Settles O38: a valid tuple's fields are what is packed and found again, and they are the operands. DECODE of the encoder's
pins is the round-trip wiring. -/
theorem encodeThenDecodeIsIdentity : Obligations.EncodeThenDecodeIsIdentity := by
  intro p so d t u s hvalid
  have hres (policy : OorPolicy) := encodeResult_of_valid policy hvalid
  have hback : tupleOf (fieldsOf ⟨p, so, d, t, u⟩) = ⟨p, so, d, t, u⟩ := tupleOf_fieldsOf hvalid
  refine ⟨⟨_, s.loopBack .fault ⟨p, so, d, t, u⟩, exec_encode .., ?_, exec_decode .., ?_⟩,
    fun policy => ⟨_, _, hres policy, decodeResult_of_encodeResult_ok (hres policy), hback, fieldsOf_reserved _⟩⟩
  · rw [runEncoder_of_encodeResult_ok s (hres .fault)]
  · rw [loopBack_decOut_of_encodeResult_ok s (hres .fault)]
    exact ⟨rfl, hback, fieldsOf_reserved _⟩

/-! ## The bijections -/

/-- Settles O8: each function is the other's two-sided inverse. -/
theorem packUnpackInverseBijections : Obligations.PackUnpackInverseBijections :=
  ⟨unpack_pack, pack_unpack, Function.bijective_iff_has_inverse.2 ⟨unpack, unpack_pack, pack_unpack⟩,
    Function.bijective_iff_has_inverse.2 ⟨pack, pack_unpack, unpack_pack⟩⟩

/-- Settles O9: each conversion is the other's two-sided inverse, and `to_wire` is written as the groups reversed. -/
theorem wireConversionsInverseBijections : Obligations.WireConversionsInverseBijections :=
  ⟨fromWire_toWire, toWire_fromWire, Function.bijective_iff_has_inverse.2 ⟨fromWire, fromWire_toWire, toWire_fromWire⟩,
    Function.bijective_iff_has_inverse.2 ⟨toWire, toWire_fromWire, fromWire_toWire⟩, fun _ => rfl,
    fun b => List.reverse_reverse (wireBytes b)⟩

/-- A valid tuple is determined by its fields: cutting its operands to them loses nothing. -/
theorem eq_of_fieldsOf_eq {t t' : RoutingTuple} (ht : t.Valid) (ht' : t'.Valid) (h : fieldsOf t = fieldsOf t') : t = t' := by
  rw [← tupleOf_fieldsOf ht, h, tupleOf_fieldsOf ht']

/-- Settles O40: ENCODE keeps a valid tuple's fields, and DECODE of four bytes is two bijections one after the other. -/
theorem encodeInjectiveDecodeBijective : Obligations.EncodeInjectiveDecodeBijective := by
  refine ⟨fun t t' b ht ht' hres hres' => eq_of_fieldsOf_eq ht ht' ?_, fun b b' hsame => ?_,
    fun h => ⟨_, decodeResult_toWire_pack h⟩⟩
  · rw [← unpack_fromWire_of_encodeResult_ok hres, unpack_fromWire_of_encodeResult_ok hres']
  · obtain ⟨-, -, -, hunpack, -⟩ := packUnpackInverseBijections
    obtain ⟨-, -, -, ⟨hfromWire, -⟩, -⟩ := wireConversionsInverseBijections
    rw [decodeResult_of_len_eq rfl, decodeResult_of_len_eq rfl] at hsame
    exact hfromWire (hunpack (Except.ok.inj hsame))

/-! ## Encode after decode -/

/-- A header's fields handed back to ENCODE never fail, and are packed with reserved zero (42_laws R97). -/
theorem encodeResult_tupleOf (policy : OorPolicy) (h : Header) :
    encodeResult policy (tupleOf h) = .ok (toWire (pack { h with reserved := 0x00#8 })) := by
  have hfields : fieldsOf (tupleOf h) = { h with reserved := 0x00#8 } := fieldsOf_tupleOf (h := { h with reserved := 0x00#8 }) rfl
  rw [encodeResult_of_valid policy (tupleOf_valid h), hfields]

/-- The reserved field shows in wire byte 0 only (30_encoding R48). -/
theorem toWire_pack_with_reserved (h : Header) (v : Reserved) :
    toWire (pack { h with reserved := v }) = { toWire (pack h) with b0 := v } := by
  simp only [toWire_eq_append_unpack, unpack_pack]

/-- Bytes decoded and encoded again are the bytes with byte 0 cleared (42_laws R97). -/
theorem encodeResult_tupleOf_unpack_fromWire (policy : OorPolicy) (b : WireHeader) :
    encodeResult policy (tupleOf (unpack (fromWire b))) = .ok { b with b0 := 0x00#8 } := by
  rw [encodeResult_tupleOf, toWire_pack_with_reserved, pack_unpack, toWire_fromWire]

/-- Settles O39: what comes back is the input with byte 0 cleared. -/
theorem decodeThenEncodeLosesOnlyReserved : Obligations.DecodeThenEncodeLosesOnlyReserved := by
  intro b policy
  have hres := encodeResult_tupleOf_unpack_fromWire policy b
  refine ⟨_, decodeResult_of_len_eq rfl, hres, ?_⟩
  rw [hres, Except.ok.injEq]
  exact ⟨fun hsame => (congrArg WireHeader.b0 hsame).symm, fun hzero => by rw [← hzero]⟩

/-- Settles O41: a header with reserved zero is a fixed point, and the first re-encoding reaches it. -/
theorem encodeThenDecodeIsStable : Obligations.EncodeThenDecodeIsStable := by
  intro b h _
  exact ⟨_, encodeResult_tupleOf .fault h, decodeResult_toWire_pack _,
    encodeResult_tupleOf .fault { h with reserved := 0x00#8 }⟩

end Sys2Proof.Proofs

/-!
SUPPORT. When an operation fails and what is kept where it does not (42_laws R100 to R104).
-/

namespace Sys2Proof.Proofs

open Sys2Proof Sys2Proof.Machine

/-! ## Failure -/

/-- DECODE's only error, and its condition (41_decode R82). -/
theorem decodeResult_eq_error_iff {r : ReceivedHeader} {e : CodecError} :
    decodeResult r = .error e ↔ r.len ≠ 4#3 ∧ e = .decodeLength r.len := by
  rcases decodeResult_cases r with ⟨hres, hlen⟩ | ⟨hres, hlen⟩
  · simp [hres, hlen]
  · simp [hres, hlen, eq_comm]

/-- Settles O35: the length alone decides, and the operands of any header's fields are a valid tuple. -/
theorem decodeFailsExactlyOnLength : Obligations.DecodeFailsExactlyOnLength := by
  intro r
  refine ⟨⟨fun ⟨e, herr⟩ => (decodeResult_eq_error_iff.1 herr).1, fun hlen => ⟨_, decodeResult_of_len_ne hlen⟩⟩,
    fun e herr => (decodeResult_eq_error_iff.1 herr).2,
    fun h policy _ => ⟨tupleOf_valid h, _, encodeResult_tupleOf policy h⟩⟩

/-- ENCODE's only error under `FAULT`, and its condition (42_laws R103). -/
theorem encodeResult_fault_eq_error_iff {t : RoutingTuple} {e : CodecError} :
    encodeResult .fault t = .error e ↔ ¬ t.Valid ∧ e = .encodeRange (oorVector t) := by
  rw [← oorVector_eq_zero_iff]
  rcases encodeResult_cases .fault t with ⟨hres, -, hoor⟩ | ⟨hres, hmask | hoor⟩
  · simp [hres, hoor, eq_comm]
  · cases hmask
  · simp [hres, hoor]

/-- When ENCODE answers a header under `FAULT`, and which (42_laws R103). -/
theorem encodeResult_fault_eq_ok_iff {t : RoutingTuple} {b : WireHeader} :
    encodeResult .fault t = .ok b ↔ t.Valid ∧ b = toWire (pack (fieldsOf t)) := by
  rw [← oorVector_eq_zero_iff]
  rcases encodeResult_cases .fault t with ⟨hres, -, hoor⟩ | ⟨hres, hmask | hoor⟩
  · simp [hres, hoor]
  · cases hmask
  · simp [hres, hoor, eq_comm]

/-- Operands with the same residues are cut to the same fields (40_encode R68). -/
theorem setWidth_eq_of_mod_eq {n w : Nat} {v x : BitVec n} (h : v.toNat % 2 ^ w = x.toNat % 2 ^ w) :
    v.setWidth w = x.setWidth w := by
  rw [← BitVec.toNat_inj, BitVec.toNat_setWidth, BitVec.toNat_setWidth, h]

/-- The operands of the packed fields are the operands themselves exactly for a valid tuple (42_laws R103). -/
theorem tupleOf_fieldsOf_eq_iff (t : RoutingTuple) : tupleOf (fieldsOf t) = t ↔ t.Valid :=
  ⟨fun hsame => hsame ▸ tupleOf_valid (fieldsOf t), tupleOf_fieldsOf⟩

/-- Settles O42: under `FAULT` by the range check and its vector, under `MASK` by the fields the operands are cut to. -/
theorem policiesOnInvalidTuples : Obligations.PoliciesOnInvalidTuples := by
  refine ⟨fun t v hp hs hd ht hu => ?_, fun t => ?_⟩
  · rw [encodeResult_mask, encodeResult_mask, fieldsOf, setWidth_eq_of_mod_eq (w := 2) hp, setWidth_eq_of_mod_eq (w := 5) hs,
      setWidth_eq_of_mod_eq (w := 5) hd, setWidth_eq_of_mod_eq (w := 6) ht, setWidth_eq_of_mod_eq (w := 6) hu, fieldsOf]
  · have hmask := encodeResult_mask t
    refine ⟨?_, ?_, fun oor herr => ?_, _, _, hmask, decodeResult_of_encodeResult_ok hmask, BitVec.toNat_setWidth ..,
      BitVec.toNat_setWidth .., BitVec.toNat_setWidth .., BitVec.toNat_setWidth .., BitVec.toNat_setWidth ..,
      fieldsOf_reserved t, tupleOf_fieldsOf_eq_iff t⟩
    · exact ⟨fun ⟨_, herr⟩ => (encodeResult_fault_eq_error_iff.1 herr).1,
        fun hbad => ⟨_, encodeResult_fault_of_not_valid hbad⟩⟩
    · exact ⟨fun ⟨_, hok⟩ => (encodeResult_fault_eq_ok_iff.1 hok).1,
        fun hvalid => ⟨_, encodeResult_of_valid .fault hvalid⟩⟩
    · obtain ⟨-, hvector⟩ := encodeResult_fault_eq_error_iff.1 herr
      cases hvector
      exact getLsbD_oorVector_iff t

/-- Settles O30: two headers evaluated. -/
theorem byteOrderLiterals : Obligations.ByteOrderLiterals := ⟨by decide, by decide⟩

/-! ## What the host takes -/

/-- Behind `enc_err` the host takes what ENCODE's function answers. -/
theorem takeEncoded_runEncoder (s : State) (policy : OorPolicy) (t : RoutingTuple) :
    takeEncoded (s.runEncoder policy t) = encodeResult policy t := by
  rcases encodeResult_cases policy t with ⟨hres, -⟩ | ⟨hres, -⟩
  · rw [runEncoder_of_encodeResult_error s hres, hres]
    rfl
  · rw [runEncoder_of_encodeResult_ok s hres, hres]
    rfl

/-- Behind `dec_err` the host takes what DECODE's function answers. -/
theorem takeDecoded_runDecoder (s : State) (r : ReceivedHeader) : takeDecoded (s.runDecoder r) = decodeResult r := by
  by_cases hlen : r.len = 4#3
  · rw [runDecoder_of_len_eq s hlen, decodeResult_of_len_eq hlen]
    rfl
  · rw [runDecoder_of_len_ne s hlen, decodeResult_of_len_ne hlen]
    rfl

/-- Settles O44, operation by operation. -/
theorem operationsTotalAndDeterministic : Obligations.OperationsTotalAndDeterministic := by
  intro i s
  cases i with
  | encode p so d t u => exact ⟨_, exec_encode .., congrArg Result.encoded (takeEncoded_runEncoder ..)⟩
  | decode b0 b1 b2 b3 n => exact ⟨_, exec_decode .., congrArg Result.decoded (takeDecoded_runDecoder ..)⟩

end Sys2Proof.Proofs

/-!
SUPPORT. Independence of the fields (42_laws R101): headers that differ in one field have words that differ under its mask only,
and wire bytes that differ only where the field lies.
-/

namespace Sys2Proof.Proofs

open Sys2Proof Sys2Proof.Machine

/-- The fields of an exclusive or are the exclusive ors of the fields. -/
theorem unpack_xor (x y : Word) :
    unpack (x ^^^ y) =
      ⟨(unpack x).priority ^^^ (unpack y).priority, (unpack x).source ^^^ (unpack y).source,
        (unpack x).destination ^^^ (unpack y).destination, (unpack x).destPort ^^^ (unpack y).destPort,
        (unpack x).sourcePort ^^^ (unpack y).sourcePort, (unpack x).reserved ^^^ (unpack y).reserved⟩ := by
  simp only [unpack, BitVec.extractLsb'_xor]

/-- The bits in which two headers' words differ are those in which their fields do, packed. -/
theorem pack_xor_pack (h k : Header) :
    pack h ^^^ pack k =
      pack ⟨h.priority ^^^ k.priority, h.source ^^^ k.source, h.destination ^^^ k.destination, h.destPort ^^^ k.destPort,
        h.sourcePort ^^^ k.sourcePort, h.reserved ^^^ k.reserved⟩ := by
  rw [← pack_unpack (pack h ^^^ pack k), unpack_xor, unpack_pack, unpack_pack]

/-- A field at its place has no bit outside its mask. -/
theorem setWidth_shiftLeft_and_not_lowMask {w n k : Nat} (v : BitVec w) (hfits : k + w ≤ n) :
    (v.setWidth n <<< k) &&& ~~~(BitVec.ofNat n (2 ^ w - 1) <<< k) = 0#n := by
  have hmask : (v.setWidth n <<< k) &&& BitVec.ofNat n (2 ^ w - 1) <<< k = v.setWidth n <<< k := by
    rw [and_shiftLeft_lowMask, extractLsb'_shiftLeft_of_ge v le_rfl hfits]
    simp
  rw [← hmask, BitVec.and_assoc, BitVec.and_not_self]
  exact BitVec.and_zero

/-- The word of a header with one field other than zero lies inside that field's mask (30_encoding R46). -/
theorem pack_of_oneField_and_not_fieldMask (p : Priority) (so d : NodeId) (t u : PortNumber) :
    pack ⟨p, 0#5, 0#5, 0#6, 0#6, 0#8⟩ &&& ~~~0xC0000000#32 = 0#32 ∧
    pack ⟨0#2, so, 0#5, 0#6, 0#6, 0#8⟩ &&& ~~~0x3E000000#32 = 0#32 ∧
    pack ⟨0#2, 0#5, d, 0#6, 0#6, 0#8⟩ &&& ~~~0x01F00000#32 = 0#32 ∧
    pack ⟨0#2, 0#5, 0#5, t, 0#6, 0#8⟩ &&& ~~~0x000FC000#32 = 0#32 ∧
    pack ⟨0#2, 0#5, 0#5, 0#6, u, 0#8⟩ &&& ~~~0x00003F00#32 = 0#32 := by
  refine ⟨?_, ?_, ?_, ?_, ?_⟩
  · simpa [pack] using setWidth_shiftLeft_and_not_lowMask (n := 32) (k := 30) p (by decide)
  · simpa [pack] using setWidth_shiftLeft_and_not_lowMask (n := 32) (k := 25) so (by decide)
  · simpa [pack] using setWidth_shiftLeft_and_not_lowMask (n := 32) (k := 20) d (by decide)
  · simpa [pack] using setWidth_shiftLeft_and_not_lowMask (n := 32) (k := 14) t (by decide)
  · simpa [pack] using setWidth_shiftLeft_and_not_lowMask (n := 32) (k := 8) u (by decide)

/-- Settles O31: the exclusive or of the two words has one field that may be other than zero, and the wire map and the slices of
41_decode R87 name the bytes each field lies in. -/
theorem fieldIndependence : Obligations.FieldIndependence := by
  constructor
  · intro t v
    obtain ⟨hp, hso, hd, ht, hu⟩ := pack_of_oneField_and_not_fieldMask (v.setWidth 2 ^^^ t.priority.setWidth 2)
      (v.setWidth 5 ^^^ t.source.setWidth 5) (v.setWidth 5 ^^^ t.destination.setWidth 5)
      (v.setWidth 6 ^^^ t.destPort.setWidth 6) (v.setWidth 6 ^^^ t.sourcePort.setWidth 6)
    simp only [pack_xor_pack, toWire_eq_append_unpack, unpack_pack, fieldsOf, BitVec.xor_self, and_true]
    exact ⟨hp, hso, hd, ht, hu⟩
  · intro b c
    simp only [unpack_eq_slices_toWire, toWire_fromWire]
    exact ⟨fun h3 => ⟨by rw [h3], by rw [h3]⟩, fun h3 h2 => by rw [h3, h2], fun h2 h1 => by rw [h2, h1],
      fun h1 => by rw [h1], fun h0 => h0⟩

end Sys2Proof.Proofs

/-!
SUPPORT. The two error outcomes and the model's boundary (60_exceptions R105, R119): what a step refuses, which operation ends in
which error, and the wrapper recommended around ENCODE and DECODE.
-/

namespace Sys2Proof.Proofs

open Sys2Proof Sys2Proof.Machine

/-! ## What a step refuses -/

/-- An operand is put on its pin exactly when it is presentable, and what follows it in an ENCODE is reached only then. -/
theorem isOk_presentOperand_bind {which : OperandName} {q : Rat} {f : Operand → Except Unpresentable Instr} {P : Prop}
    (hf : ∀ v, (f v).isOk = true ↔ P) : (presentOperand which q >>= f).isOk = true ↔ PresentableOperand q ∧ P := by
  rcases presentOperand_cases which q with ⟨hq, hres⟩ | ⟨hq, hres⟩ <;> rw [hres]
  · exact (hf _).trans (and_iff_right hq).symm
  · exact iff_of_false nofun fun ⟨hq', _⟩ => hq hq'

theorem isOk_present_iff (held : ReceivedHeader) (r : Request) : (present held r).isOk = true ↔ r.Presentable := by
  cases r with
  | encode p s d t u =>
    rw [Request.Presentable, ← and_true (PresentableOperand u)]
    exact isOk_presentOperand_bind fun _ => isOk_presentOperand_bind fun _ => isOk_presentOperand_bind fun _ =>
      isOk_presentOperand_bind fun _ => isOk_presentOperand_bind fun _ => iff_of_true rfl trivial
  | decode bytes =>
    rw [present]
    split
    · exact iff_of_true rfl ‹_›
    · exact iff_of_false nofun ‹_›

theorem present_decode_of_tooLong (held : ReceivedHeader) {bytes : List Byte} (h : 7 < bytes.length) :
    present held (.decode bytes) = .error (.sequenceTooLong bytes.length) :=
  if_neg (Nat.not_le.2 h)

/-- The two ways a step can end, with the condition of each. -/
theorem step_next_or_refused (s : State) :
    ((∃ s', step s = .next s') ∧ ∀ r rest, s.pending = r :: rest → r.Presentable) ∨
    ((∃ why, step s = .refused why) ∧ ∃ r rest, s.pending = r :: rest ∧ ¬ r.Presentable) := by
  cases hp : s.pending with
  | nil => exact .inl ⟨⟨s, step_of_pending_nil hp⟩, nofun⟩
  | cons r rest =>
    have hiff := isOk_present_iff s.decIn r
    cases hres : present s.decIn r with
    | ok i =>
      obtain ⟨s', hexec, -⟩ := operationsTotalAndDeterministic i { s with pending := rest }
      refine .inl ⟨⟨s', (step_of_present_ok hp hres).trans hexec⟩, fun _ _ heq => ?_⟩
      cases heq
      exact hiff.1 (by rw [hres]; rfl)
    | error why =>
      exact .inr ⟨⟨_, step_of_present_error hp hres⟩, r, rest, rfl, fun hr => by rw [← hiff, hres] at hr; cases hr⟩

/-- Settles O21, by the two ways a step can end. -/
theorem stepRefusesExactlyTheUnpresentable : Obligations.StepRefusesExactlyTheUnpresentable := by
  intro s
  have hlong (bytes : List Byte) (rest : List Request) (hp : s.pending = .decode bytes :: rest) (h : 7 < bytes.length) :
      step s = .refused (.notPresentable (.sequenceTooLong bytes.length)) :=
    step_of_present_error hp (present_decode_of_tooLong s.decIn h)
  rcases step_next_or_refused s with ⟨⟨s', hstep⟩, hall⟩ | ⟨⟨why, hstep⟩, r, rest, hp, hr⟩
  · refine ⟨⟨fun ⟨_, href⟩ => ?_, fun ⟨r, rest, hp, hr⟩ => absurd (hall r rest hp) hr⟩,
      ⟨fun _ => hall, fun _ => ⟨s', hstep⟩⟩, hlong⟩
    rw [hstep] at href
    cases href
  · refine ⟨⟨fun _ => ⟨r, rest, hp, hr⟩, fun _ => ⟨why, hstep⟩⟩,
      ⟨fun ⟨_, hnext⟩ => ?_, fun hall => absurd (hall r rest hp) hr⟩, hlong⟩
    rw [hstep] at hnext
    cases hnext

/-! ## The two errors and their codes -/

/-- ENCODE's only error, and its condition under either policy (40_encode R67, R68). -/
theorem encodeResult_eq_error_iff {policy : OorPolicy} {t : RoutingTuple} {e : CodecError} :
    encodeResult policy t = .error e ↔ policy = .fault ∧ ¬ t.Valid ∧ e = .encodeRange (oorVector t) := by
  cases policy with
  | fault => simp only [encodeResult_fault_eq_error_iff, true_and]
  | mask => simp [encodeResult_mask]

/-- Settles O50: each operation has one error. -/
theorem errorCodesByOperation : Obligations.ErrorCodesByOperation := by
  refine ⟨rfl, fun policy t e herr => ?_, fun r e herr => ?_⟩
  · obtain ⟨hpolicy, hbad, rfl⟩ := encodeResult_eq_error_iff.1 herr
    exact ⟨rfl, hpolicy, hbad⟩
  · obtain ⟨hlen, rfl⟩ := decodeResult_eq_error_iff.1 herr
    exact ⟨rfl, hlen⟩

/-! ## The wrapper around ENCODE -/

/-- The vector `wrapEncode` reports: one bit per argument that is no value of its field (log 13). -/
def wrapOor (p s d t u : Rat) : OorVector :=
  oorBit 0 (!argumentFits Config.priW p) ||| oorBit 1 (!argumentFits Config.srcW s)
    ||| oorBit 2 (!argumentFits Config.dstW d) ||| oorBit 3 (!argumentFits Config.dportW t)
    ||| oorBit 4 (!argumentFits Config.sportW u)

theorem wrapEncode_of_wrapOor_eq_zero {p s d t u : Rat} (h : wrapOor p s d t u = 0#5) :
    wrapEncode p s d t u = encodeResult .fault ⟨BitVec.ofInt 8 p.num, BitVec.ofInt 8 s.num, BitVec.ofInt 8 d.num,
      BitVec.ofInt 8 t.num, BitVec.ofInt 8 u.num⟩ :=
  if_pos h

theorem wrapEncode_of_wrapOor_ne_zero {p s d t u : Rat} (h : wrapOor p s d t u ≠ 0#5) :
    wrapEncode p s d t u = .error (.encodeRange (wrapOor p s d t u)) :=
  if_neg h

/-- On an operand of the pins the wrapper's check is ENCODE's own. -/
theorem argumentFits_toNat (w : Nat) (v : Operand) : argumentFits w v.toNat = !outOfRange w v := by
  obtain ⟨hden, hnum, -⟩ := presentableOperand_toNat v
  have hlt : ((v.toNat : Rat).num < 2 ^ w) ↔ ¬ 2 ^ w ≤ v.toNat := by
    rw [Rat.num_natCast, Nat.not_le]
    exact_mod_cast Iff.rfl
  simp only [argumentFits, outOfRange, hden, hnum, hlt, true_and, decide_not]

theorem wrapOor_toNat (t : RoutingTuple) :
    wrapOor t.priority.toNat t.source.toNat t.destination.toNat t.destPort.toNat t.sourcePort.toNat = oorVector t := by
  simp only [wrapOor, argumentFits_toNat, Bool.not_not, oorVector]

theorem wrapEncode_toNat (t : RoutingTuple) :
    wrapEncode t.priority.toNat t.source.toNat t.destination.toNat t.destPort.toNat t.sourcePort.toNat =
      encodeResult .fault t := by
  by_cases hoor : oorVector t = 0#5
  · rw [wrapEncode_of_wrapOor_eq_zero ((wrapOor_toNat t).trans hoor)]
    simp only [Rat.num_natCast, BitVec.ofInt_natCast, BitVec.ofNat_toNat, BitVec.setWidth_eq]
  · rw [wrapEncode_of_wrapOor_ne_zero (by rwa [wrapOor_toNat]), wrapOor_toNat,
      encodeResult_fault_of_not_valid (mt (oorVector_eq_zero_iff t).2 hoor)]

/-- An argument the pins cannot carry is no value of any field, since no field is wider than the pins. -/
theorem argumentFits_of_not_presentable {w : Nat} (hw : w ≤ 8) {q : Rat} (h : ¬ PresentableOperand q) :
    argumentFits w q = false := by
  have hpow : (2 : Int) ^ w ≤ 2 ^ 8 := pow_le_pow_right₀ (by decide) hw
  rw [argumentFits, decide_eq_false_iff_not]
  rintro ⟨hden, hnonneg, hlt⟩
  exact h ⟨hden, hnonneg, hlt.trans_le hpow⟩

/-- Each argument the pins cannot carry has its bit set in the wrapper's vector (60_exceptions R119). -/
theorem getLsbD_wrapOor_of_not_presentable (p s d t u : Rat) :
    (¬ PresentableOperand p → (wrapOor p s d t u).getLsbD 0 = true) ∧
    (¬ PresentableOperand s → (wrapOor p s d t u).getLsbD 1 = true) ∧
    (¬ PresentableOperand d → (wrapOor p s d t u).getLsbD 2 = true) ∧
    (¬ PresentableOperand t → (wrapOor p s d t u).getLsbD 3 = true) ∧
    (¬ PresentableOperand u → (wrapOor p s d t u).getLsbD 4 = true) := by
  simp only [wrapOor, BitVec.getLsbD_or, getLsbD_oorBit, Nat.reduceLT]
  refine ⟨fun h => ?_, fun h => ?_, fun h => ?_, fun h => ?_, fun h => ?_⟩ <;>
    simp [argumentFits_of_not_presentable _ h, Config.priW, Config.srcW, Config.dstW, Config.dportW, Config.sportW]

theorem wrapOor_ne_zero_of_not_presentable {p s d t u : Rat} (h : ¬ (Request.encode p s d t u).Presentable) :
    wrapOor p s d t u ≠ 0#5 := by
  intro hzero
  have hbits := getLsbD_wrapOor_of_not_presentable p s d t u
  simp only [hzero, BitVec.getLsbD_zero, Bool.false_eq_true, imp_false, not_not] at hbits
  exact h hbits

/-! ## The wrapper around DECODE -/

theorem wrapDecode_of_length_eq {bytes : List Byte} (held : WireHeader) (h : bytes.length = 4) :
    wrapDecode bytes = .ok (unpack (fromWire (onPins held bytes).wire)) := by
  obtain ⟨b0, b1, b2, b3, rfl⟩ := List.length_eq_four.1 h
  rfl

theorem wrapDecode_of_length_ne {bytes : List Byte} (h : bytes.length ≠ 4) :
    wrapDecode bytes = .error (.decodeLength (BitVec.ofNat 3 (min bytes.length 7))) := by
  unfold wrapDecode
  split
  · exact absurd rfl h
  · rfl

/-- The count of a presentable sequence on `dec_len` passes DECODE's length check exactly for 4 bytes. -/
theorem onPins_len_eq_four_iff (held : WireHeader) {bytes : List Byte} (h : bytes.length ≤ 7) :
    (onPins held bytes).len = 4#3 ↔ bytes.length = 4 := by
  rw [onPins, ← BitVec.toNat_inj, BitVec.toNat_ofNat, BitVec.toNat_ofNat]
  omega

theorem wrapDecode_of_presentable (held : WireHeader) {bytes : List Byte} (h : bytes.length ≤ 7) :
    wrapDecode bytes = decodeResult (onPins held bytes) := by
  by_cases hlen : bytes.length = 4
  · rw [wrapDecode_of_length_eq held hlen, decodeResult_of_len_eq ((onPins_len_eq_four_iff held h).2 hlen)]
  · rw [wrapDecode_of_length_ne hlen, decodeResult_of_len_ne (mt (onPins_len_eq_four_iff held h).1 hlen), Nat.min_eq_left h,
      onPins]

/-- Settles O58: the two wrappers on what the pins carry, and on what they cannot. -/
theorem boundaryWrapperAgrees : Obligations.BoundaryWrapperAgrees := by
  refine ⟨wrapEncode_toNat, fun p s d t u hbad => ?_, fun bytes held => wrapDecode_of_presentable held, fun bytes hlong => ?_⟩
  · have herr := wrapEncode_of_wrapOor_ne_zero (wrapOor_ne_zero_of_not_presentable hbad)
    exact ⟨_, herr, getLsbD_wrapOor_of_not_presentable p s d t u⟩
  · exact ⟨_, wrapDecode_of_length_ne (by omega)⟩

end Sys2Proof.Proofs

/-!
SUPPORT. Reset and the duties of the host (70_reset_and_hazards): the outputs at reset (R126), a run's results (R140), the
substitutes behind the error pins (R137), the two wirings (R136) and the replies withheld (R128).
-/

namespace Sys2Proof.Proofs

open Sys2Proof Sys2Proof.Machine

/-- Settles O2: the gate equations of each datapath, evaluated at zero inputs. -/
theorem resetOutputsFollowInputs : Obligations.ResetOutputsFollowInputs :=
  ⟨(by decide : EncoderDriven State.reset), (by decide : DecoderDriven State.reset)⟩

/-! ## A run -/

/-- A run takes the first operation's result and goes on from the state that operation answers. -/
theorem hostRun_cons {i : Instr} {s s' : State} (h : exec i s = .next s') (rest : List Instr) :
    hostRun s (i :: rest) = takeResult i.datapath s' :: hostRun s' rest := by
  simp only [hostRun, h]

/-- Settles O48, by induction on the operations, for every starting state at once: an operation always answers a next state, and
what the host takes there depends on its operands alone. -/
theorem runIsConjunctionOfOperations : Obligations.RunIsConjunctionOfOperations := by
  intro ops
  induction ops with
  | nil => exact fun _ => rfl
  | cons i rest ih =>
    intro s
    obtain ⟨s', hexec, htake⟩ := operationsTotalAndDeterministic i s
    rw [hostRun_cons hexec, htake, ih, List.map_cons]

/-! ## The all-zero header -/

/-- ENCODE of the all-zero tuple is the bytes of the encoder's substitute (40_encode R70). -/
theorem encodeResult_allZero :
    encodeResult .fault ⟨0#8, 0#8, 0#8, 0#8, 0#8⟩ = .ok ⟨0x00#8, 0x00#8, 0x00#8, 0x00#8⟩ := by
  decide

/-- DECODE of four zero bytes is the decoder's substitute (41_decode R84, R90). -/
theorem decodeResult_allZero : decodeResult ⟨⟨0#8, 0#8, 0#8, 0#8⟩, 4#3⟩ = .ok Config.emptyHeader := by
  decide

/-- Settles O49: the pins after each error beside those after the all-zero header. -/
theorem substitutesEqualTheAllZeroHeader : Obligations.SubstitutesEqualTheAllZeroHeader := by
  intro t r s hbad hlen
  rw [runEncoder_of_encodeResult_error s (encodeResult_fault_of_not_valid hbad),
    runEncoder_of_encodeResult_ok s encodeResult_allZero, runDecoder_of_len_ne s hlen, runDecoder_spec, decodeResult_allZero]
  exact ⟨rfl, rfl, rfl, rfl, rfl, rfl⟩

/-! ## The two wirings -/

/-- The decoder's fields fed to the encoder: ENCODE of a header's fields never fails and clears byte 0 only (42_laws R97). -/
theorem rePack_encOut (s : State) (policy : OorPolicy) (b : WireHeader) :
    (s.rePack policy ⟨b, 4#3⟩).encOut = ⟨{ b with b0 := 0x00#8 }, 0#1, 0#5⟩ := by
  rw [State.rePack, runDecoder_of_len_eq s rfl,
    runEncoder_of_encodeResult_ok _ (encodeResult_tupleOf_unpack_fromWire policy b)]

/-- Settles O51: the looped pins carry the fields ENCODE packed, which are a valid tuple's operands. -/
theorem wiringsRoundTripAndRePack : Obligations.WiringsRoundTripAndRePack := by
  refine ⟨fun policy t s hvalid => ?_, fun policy b s => rePack_encOut s policy b⟩
  rw [loopBack_decOut_of_encodeResult_ok s (encodeResult_of_valid policy hvalid)]
  exact ⟨tupleOf_fieldsOf hvalid, fieldsOf_reserved t, rfl⟩

/-! ## Replies -/

/-- The host withholds its reply exactly where ENCODE of the reply header ends in an error (70_reset_and_hazards R137). -/
theorem replyFrame_eq_none_iff (policy : OorPolicy) (c : HostConfig) (text : List Byte) :
    replyFrame policy c text = none ↔ ∃ e, encodeResult policy (replyTuple c) = .error e := by
  unfold replyFrame
  cases encodeResult policy (replyTuple c) with
  | ok b => exact iff_of_false nofun nofun
  | error e => exact iff_of_true rfl ⟨e, rfl⟩

/-- The reply's tuple is valid exactly for a configuration in range: its other two operands are constants in range. -/
theorem replyTuple_valid_iff (c : HostConfig) :
    (replyTuple c).Valid ↔ c.nodeId.toNat < 32 ∧ c.peerId.toNat < 32 ∧ c.appPort.toNat < 64 :=
  ⟨fun ⟨_, hn, hp, ha, _⟩ => ⟨hn, hp, ha⟩, fun ⟨hn, hp, ha⟩ => replyTuple_valid hn hp ha⟩

/-- Settles O56: under `FAULT` ENCODE fails exactly on an invalid tuple, under `MASK` it never does. -/
theorem replyFailsExactlyOutOfRange : Obligations.ReplyFailsExactlyOutOfRange := by
  intro c text
  obtain ⟨hfails, -, -⟩ := encodeFailsExactlyOnInvalidTuple (replyTuple c)
  constructor
  · rw [replyFrame_eq_none_iff, hfails, replyTuple_valid_iff]
    omega
  · rw [replyFrame, encodeResult_mask]
    rfl

end Sys2Proof.Proofs
